-- ==== Sys2Proof/Word.lean ====
section
/-! DEFINITION. The words of the engine (spec/00_scope.md R10): `u8`, `u32`, and the 64-bit block of two half-blocks. -/

namespace Sys2Proof

/-- `u8` (R10). -/
abbrev Byte := BitVec 8

/-- `u32` (R10): the width of every cipher word and of every descriptor word. -/
abbrev Word := BitVec 32

/-- `u64` (R10): the width of `IV64` and `CTR64`. -/
abbrev DWord := BitVec 64

/-- A 64-bit block as its two half-blocks: `l` is the first four bytes, `r` the last four (00_scope.md, glossary). -/
structure Block where
  /-- the left, more significant half -/
  l : Word
  /-- the right half -/
  r : Word
deriving DecidableEq, Repr

end Sys2Proof
end

