-- ==== Sys2Proof/Machine/Bytes.lean ====
section
/-! DEFINITION. Bit fields and the big-endian byte packing of spec/00_scope.md R10, R12 and spec/20_memory.md R64. -/

namespace Sys2Proof.Machine

/-- Byte `i` of a word, byte 0 the most significant: `w[31-8i : 24-8i]` (R10, R12). -/
def wordByte (w : Word) (i : Nat) : Byte := w.extractLsb' (24 - 8 * i) 8

/-- `BE32(b0, b1, b2, b3)` (R12). -/
def be32 (b0 b1 b2 b3 : Byte) : Word :=
  (b0.setWidth 32 <<< 24) ^^^ (b1.setWidth 32 <<< 16) ^^^ (b2.setWidth 32 <<< 8) ^^^ b3.setWidth 32

/-- `UNBE32(w)`: the four bytes of a word, most significant first (R12). -/
def unbe32 (w : Word) : List Byte := [wordByte w 0, wordByte w 1, wordByte w 2, wordByte w 3]

/-- The eight bytes of a block in ascending address order: `UNBE32(L)` then `UNBE32(R)` (R64). -/
def blockBytes (b : Block) : List Byte := unbe32 b.l ++ unbe32 b.r

/-- The 64-bit value `L ‖ R` (10_state.md R25, R26). -/
def blockValue (b : Block) : DWord := b.l ++ b.r

/-- The block whose 64-bit value is `v`: `L = v[63:32]`, `R = v[31:0]` (10_state.md R25, R26). -/
def blockOfValue (v : DWord) : Block := ⟨v.extractLsb' 32 32, v.extractLsb' 0 32⟩

/-- Half by half exclusive or of two blocks (R11). -/
def xorBlock (a b : Block) : Block := ⟨a.l ^^^ b.l, a.r ^^^ b.r⟩

end Sys2Proof.Machine
end

