-- ==== Sys2Proof/Config.lean ====
section
/-! DEFINITION. What is fixed for the engine and is not state: the parameters of spec/00_scope.md R6, and the one
free value of the spec (70_reset_and_hazards.md R231). -/

namespace Sys2Proof.Config

/-- `AW`, the width of a host-memory address and of `LEN` (R6, R7; notes/assumptions/6.md). -/
abbrev addressWidth : Nat := 32

/-- The number of addresses of host memory, `2^AW` (20_memory.md R60). -/
abbrev addressSpace : Nat := 2 ^ addressWidth

/-- `NULL`, the address that stands for "no buffer given" (20_memory.md R61). -/
abbrev null : Nat := 0

/-- What a byte of host memory that nothing has written reads as. DESIGN CHOICE, unsafe: the spec gives host memory no
initial contents (notes/assumptions/1.md). -/
abbrev unlistedByte : Byte := 0#8

/-- FREE VALUE (no body). When a hardware reset interrupts a command, each byte of its output region holds "its old
value or the value the command would have written" (R231): the `n`-th interrupted command's byte at address `a` holds
the new value exactly when `interruptedByteIsNew n a` is true (notes/assumptions/7.md). -/
opaque interruptedByteIsNew : Nat → Nat → Bool

end Sys2Proof.Config
end

