-- ==== Sys2Proof/Syntax.lean ====
section
/-! DEFINITION. The eight commands of spec/30_encoding.md R82, one constructor per row of spec/opcode_table.json, and
the command descriptor of R80. -/

namespace Sys2Proof

/-- A command descriptor: four 32-bit words, passed by value (R80). -/
structure Descriptor where
  /-- `OPC`, `MODE`, `KLEN`, `RSV` (R81) -/
  w0 : Word
  /-- first operand word -/
  w1 : Word
  /-- second operand word -/
  w2 : Word
  /-- third operand word -/
  w3 : Word
deriving DecidableEq, Repr

/-- A command with its operands (R82). Every operand is "the field's bits read as an unsigned number" (R83), so a
number here, but for the half-blocks of ENC and DEC, which are words. -/
inductive Instr where
  /-- INIT: mode tag, key length in bytes, addresses of key, IV (or `NULL`) and counter (or `NULL`). -/
  | init (mode klen key iva cta : Nat)
  /-- RSTIV: address of the 8-byte IV. -/
  | rstiv (iva : Nat)
  /-- RSTCTR: address of the 8-byte counter. -/
  | rstctr (cta : Nat)
  /-- ENCB: input address, output address, byte count. -/
  | encb (inp out len : Nat)
  /-- DECB: input address, output address, byte count. -/
  | decb (inp out len : Nat)
  /-- ENC: the two half-blocks, by value. -/
  | enc (l r : Word)
  /-- DEC: the two half-blocks, by value. -/
  | dec (l r : Word)
  /-- TDN: no operand. -/
  | tdn
deriving DecidableEq, Repr

end Sys2Proof
end

