-- ==== Sys2Proof/WellFormed.lean ====
section
/-! DEFINITION. The operands that a descriptor can carry (spec/30_encoding.md R81, R83): a mode tag and a key length
of 8 bits, addresses and a byte count of `AW` = 32 bits. Semantic range errors (`MODE` > 4, `KLEN` > 56, `NULL`) are
NOT ill-formed (R92). -/

namespace Sys2Proof

/-- The number fits the 8-bit field `W0[23:16]` or `W0[15:8]` (R81). -/
def fitsByteField (n : Nat) : Bool := n < 256

/-- The number fits a whole descriptor word: an address or `LEN` (R83). -/
def fitsWordField (n : Nat) : Bool := n < Config.addressSpace

/-- Every operand fits its field of the descriptor. -/
def Instr.wellFormed : Instr → Bool
  | .init mode klen key iva cta =>
    fitsByteField mode && fitsByteField klen && fitsWordField key && fitsWordField iva && fitsWordField cta
  | .rstiv iva => fitsWordField iva
  | .rstctr cta => fitsWordField cta
  | .encb inp out len => fitsWordField inp && fitsWordField out && fitsWordField len
  | .decb inp out len => fitsWordField inp && fitsWordField out && fitsWordField len
  | .enc _ _ => true
  | .dec _ _ => true
  | .tdn => true

end Sys2Proof
end

