-- ==== Sys2Proof/Decode.lean ====
section
/-! DEFINITION. The command descriptor of spec/30_encoding.md: fields (R81), the decoder (R85, R90: total, illegal
descriptors rejected by name), its form on sixteen bytes (R80, 20_memory.md R65), and the encoder (R82). -/

namespace Sys2Proof

/-- Why a descriptor is illegal (R90). -/
inductive IllegalDescriptor where
  /-- `OPC` is 0x00 or 0x09 to 0xFF -/
  | unknownOpcode
  /-- `RSV` is not zero -/
  | reservedNotZero
  /-- a field or word that R82 requires to be zero is not -/
  | mustBeZero
  /-- the descriptor is not sixteen bytes long (R80 "There is one length") -/
  | wrongLength
deriving DecidableEq, Repr

/-- `OPC` = `W0[31:24]` (R81). -/
def Descriptor.opc (d : Descriptor) : Byte := d.w0.extractLsb' 24 8

/-- `MODE` = `W0[23:16]` (R81). -/
def Descriptor.modeField (d : Descriptor) : Byte := d.w0.extractLsb' 16 8

/-- `KLEN` = `W0[15:8]` (R81). -/
def Descriptor.klenField (d : Descriptor) : Byte := d.w0.extractLsb' 8 8

/-- `RSV` = `W0[7:0]` (R81). -/
def Descriptor.rsv (d : Descriptor) : Byte := d.w0.extractLsb' 0 8

/-- Accept a command if its must-be-zero fields are zero (R82, R90). -/
def acceptIf (zeros : Bool) (i : Instr) : Except IllegalDescriptor Instr :=
  if zeros then .ok i else .error .mustBeZero

/-- `MODE` and `KLEN` are zero, as in every command but INIT (R81). -/
def Descriptor.noKeyFields (d : Descriptor) : Bool := d.modeField == 0 && d.klenField == 0

/-- The opcode map (R82, R85), after `RSV` has been checked. -/
def decodeOpcode (d : Descriptor) : Except IllegalDescriptor Instr :=
  match d.opc.toNat with
  | 0x01 => .ok (.init d.modeField.toNat d.klenField.toNat d.w1.toNat d.w2.toNat d.w3.toNat)
  | 0x02 => acceptIf (d.noKeyFields && d.w2 == 0 && d.w3 == 0) (.rstiv d.w1.toNat)
  | 0x03 => acceptIf (d.noKeyFields && d.w2 == 0 && d.w3 == 0) (.rstctr d.w1.toNat)
  | 0x04 => acceptIf d.noKeyFields (.encb d.w1.toNat d.w2.toNat d.w3.toNat)
  | 0x05 => acceptIf d.noKeyFields (.decb d.w1.toNat d.w2.toNat d.w3.toNat)
  | 0x06 => acceptIf (d.noKeyFields && d.w3 == 0) (.enc d.w1 d.w2)
  | 0x07 => acceptIf (d.noKeyFields && d.w3 == 0) (.dec d.w1 d.w2)
  | 0x08 => acceptIf (d.noKeyFields && d.w1 == 0 && d.w2 == 0 && d.w3 == 0) .tdn
  | _ => .error .unknownOpcode

/-- The decoder: "every 128-bit pattern is either exactly one of the eight commands or illegal" (R90). -/
def decode (d : Descriptor) : Except IllegalDescriptor Instr :=
  if d.rsv == 0 then decodeOpcode d else .error .reservedNotZero

/-- A descriptor from its sixteen bytes, each word most significant byte first (R80, 20_memory.md R65). -/
def Descriptor.ofBytes : List Byte → Option Descriptor
  | [a0, a1, a2, a3, b0, b1, b2, b3, c0, c1, c2, c3, d0, d1, d2, d3] =>
    some ⟨Machine.be32 a0 a1 a2 a3, Machine.be32 b0 b1 b2 b3, Machine.be32 c0 c1 c2 c3, Machine.be32 d0 d1 d2 d3⟩
  | _ => none

/-- The sixteen bytes of a descriptor (R80). -/
def Descriptor.toBytes (d : Descriptor) : List Byte :=
  Machine.unbe32 d.w0 ++ Machine.unbe32 d.w1 ++ Machine.unbe32 d.w2 ++ Machine.unbe32 d.w3

/-- The decoder on bytes, total on every list of bytes. -/
def decodeBytes (bs : List Byte) : Except IllegalDescriptor Instr :=
  match Descriptor.ofBytes bs with
  | some d => decode d
  | none => .error .wrongLength

/-- The 128-bit pattern `W0 ‖ W1 ‖ W2 ‖ W3`, `W0` most significant (R80). -/
def Descriptor.pattern (d : Descriptor) : BitVec 128 := d.w0 ++ d.w1 ++ d.w2 ++ d.w3

/-- The descriptor of a 128-bit pattern (R80). -/
def Descriptor.ofPattern (p : BitVec 128) : Descriptor :=
  ⟨p.extractLsb' 96 32, p.extractLsb' 64 32, p.extractLsb' 32 32, p.extractLsb' 0 32⟩

/-- `W0` from `OPC`, `MODE` and `KLEN`, with `RSV` zero (R81). -/
def encodeW0 (opc mode klen : Nat) : Word :=
  BitVec.ofNat 8 opc ++ BitVec.ofNat 8 mode ++ BitVec.ofNat 8 klen ++ 0#8

/-- The descriptor of a command (R82): every unnamed field zero (R93). -/
def encode : Instr → Descriptor
  | .init mode klen key iva cta =>
    ⟨encodeW0 0x01 mode klen, BitVec.ofNat 32 key, BitVec.ofNat 32 iva, BitVec.ofNat 32 cta⟩
  | .rstiv iva => ⟨encodeW0 0x02 0 0, BitVec.ofNat 32 iva, 0, 0⟩
  | .rstctr cta => ⟨encodeW0 0x03 0 0, BitVec.ofNat 32 cta, 0, 0⟩
  | .encb inp out len => ⟨encodeW0 0x04 0 0, BitVec.ofNat 32 inp, BitVec.ofNat 32 out, BitVec.ofNat 32 len⟩
  | .decb inp out len => ⟨encodeW0 0x05 0 0, BitVec.ofNat 32 inp, BitVec.ofNat 32 out, BitVec.ofNat 32 len⟩
  | .enc l r => ⟨encodeW0 0x06 0 0, l, r, 0⟩
  | .dec l r => ⟨encodeW0 0x07 0 0, l, r, 0⟩
  | .tdn => ⟨encodeW0 0x08 0 0, 0, 0, 0⟩

/-- The descriptor of the number `w`, whose bits are numbered as spec/opcode_table.json numbers them: `W0` is bits
127:96, so the table's `nbits` are the leading ones and any operand words after them are zero
(notes/assumptions/3.md). -/
def tableDescriptor (nbits w : Nat) : Descriptor :=
  Descriptor.ofPattern (BitVec.ofNat 128 (w <<< (128 - nbits)))

/-- The command that the decoder reads from the bytes of `tableDescriptor nbits w`. -/
def decodeTableWord (nbits w : Nat) : Option Instr :=
  match decodeBytes (tableDescriptor nbits w).toBytes with
  | .ok i => some i
  | .error _ => none

end Sys2Proof
end

