-- ==== Sys2Proof/Machine/State.lean ====
section
/-! DEFINITION. The state of the machine: the cipher context and the response registers (spec/10_state.md), host memory
(spec/20_memory.md), and the host's side of the command port (spec/70_reset_and_hazards.md R235, R236). Plain data. -/

namespace Sys2Proof.Machine

/-- The five cipher modes, the values 0 to 4 of `MODE` (10_state.md R24; 5 to 7 are never held). -/
inductive Mode where
  | ecb
  | cbc
  | cfb
  | ofb
  | ctr
deriving DecidableEq, Repr

/-- `LIFE` (10_state.md R31): VOID = 0, READY = 1, FAILED = 2; 3 is never held. -/
inductive Life where
  /-- no context: never initialised since reset, or torn down -/
  | void
  /-- initialised and usable -/
  | ready
  /-- unusable after an error -/
  | failed
deriving DecidableEq, Repr

/-- The seven result codes, the values 0 to 6 of `RESULT` (60_exceptions.md R201; 7 is never produced). -/
inductive ResultCode where
  | success
  | invalidParameter
  | invalidKey
  /-- advisory: the context is usable (R204) -/
  | weakKey
  | badBufferLength
  | invalidMode
  /-- "reserved for the harness; never produced by the core directly" (R207) -/
  | testFailed
deriving DecidableEq, Repr

/-- The two expanded tables of the cipher: the subkeys `P` and the S-boxes `S` (10_state.md R21, R22). -/
structure Tables where
  /-- `P[0..17]` (R21) -/
  p : Vector Word 18
  /-- `S[0..3][0..255]` (R22) -/
  s : Vector (Vector Word 256) 4
deriving DecidableEq, Repr

/-- The cipher context (10_state.md R20 item 1). -/
structure Context where
  /-- `P` and `S` (R21, R22) -/
  tables : Tables
  /-- `MODE` (R24) -/
  mode : Mode
  /-- `IVL`, `IVR` (R25) -/
  iv : Block
  /-- `CTRL`, `CTRR` (R26) -/
  ctr : Block
  /-- `KS[0..7]` (R27) -/
  ks : Vector Byte 8
  /-- `OFF`, "always in 0 .. 7" (R28) -/
  off : Fin 8
  /-- `WEAK` (R29) -/
  weak : Bool
  /-- `LIFE` (R31) -/
  life : Life
deriving DecidableEq, Repr

/-- The response registers (10_state.md R20 item 2, R30). -/
structure ResponseRegs where
  /-- `RESULT` -/
  result : ResultCode
  /-- `XL` -/
  xl : Word
  /-- `XR` -/
  xr : Word
deriving DecidableEq, Repr

/-- One response, three words (30_encoding.md R84). -/
structure Response where
  /-- `zext_32(RESULT)` -/
  r0 : Word
  /-- `XL` -/
  r1 : Word
  /-- `XR` -/
  r2 : Word
deriving DecidableEq, Repr

/-- Host memory: the bytes that differ from `Config.unlistedByte`, at strictly rising addresses (20_memory.md R60;
notes/assumptions/1.md). -/
abbrev Memory := List Host.Cell

/-- Why a range of the address space is not plain readable and writable memory (20_memory.md R63, R71). -/
inductive HoleKind where
  /-- memory that may be read and not written -/
  | readOnly
  /-- no memory here -/
  | unmapped
  /-- a read or a write has a side effect (R71) -/
  | device
deriving DecidableEq, Repr

/-- A range of addresses that the platform has not given the host as plain memory (20_memory.md R63, R71, R75;
notes/assumptions/5.md). -/
structure Hole where
  /-- first address -/
  base : Nat
  /-- number of addresses -/
  size : Nat
  /-- what is there -/
  kind : HoleKind
deriving DecidableEq, Repr

/-- One thing the host does (70_reset_and_hazards.md R235). -/
inductive HostAction where
  /-- present a command descriptor and wait for the response -/
  | present (d : Descriptor)
  /-- write one byte of host memory between commands -/
  | write (a : Word) (v : Byte)
  /-- assert hardware reset between commands (R230) -/
  | reset
  /-- present a descriptor and assert hardware reset while the command executes (R231) -/
  | resetDuring (d : Descriptor)
deriving DecidableEq, Repr

/-- Why the machine stops with a fault. It never does: "The engine has no traps, no exception vectors and no
interrupts" (60_exceptions.md R200); errors are result codes, and what the spec gives no meaning is refused. -/
inductive Fault where
deriving DecidableEq, Repr

/-- Why a command has no meaning. Each but `notModelled` is a duty of the host whose breach the spec says "a model
refuses" (20_memory.md R63, R72); safe: the model stops where hardware does something the spec does not give. -/
inductive Refusal where
  /-- no meaning written yet: raised by no arm of `exec`. Safe. -/
  | notModelled (mnemonic : String)
  /-- a region runs past the top of the address space (R63, U3): raised by INIT, RSTIV, RSTCTR, ENCB, DECB. Safe. -/
  | regionOutsideAddressSpace
  /-- a region read is not plain readable memory (R63, R71, U3): raised by INIT, RSTIV, RSTCTR, ENCB, DECB. Safe. -/
  | regionNotReadable
  /-- a region written is not plain writable memory (R63, R71, U3): raised by ENCB, DECB and a host write. Safe. -/
  | regionNotWritable
  /-- input and output overlap without being equal (R72, U4): raised by ENCB, DECB. Safe. -/
  | partialOverlap
deriving DecidableEq, Repr

/-- The machine. -/
structure State where
  /-- the cipher context (10_state.md R20) -/
  ctx : Context
  /-- the response registers (10_state.md R30) -/
  resp : ResponseRegs
  /-- host memory (20_memory.md R60) -/
  mem : Memory
  /-- what is not plain memory; no step changes it (20_memory.md R63, R75) -/
  platform : List Hole
  /-- the host's actions still to come, the first the next (30_encoding.md R93, 70_reset_and_hazards.md R236) -/
  host : List HostAction
  /-- the responses returned so far, oldest first (30_encoding.md R84, 70_reset_and_hazards.md R236) -/
  responses : List Response
  /-- the MODEL's own field: how many interrupted commands have drawn free values (R231; notes/assumptions/7.md) -/
  freeDraws : Nat
deriving DecidableEq, Repr

/-- The all-zero tables (10_state.md R40). -/
def Tables.zero : Tables := ⟨Vector.replicate 18 0#32, Vector.replicate 4 (Vector.replicate 256 0#32)⟩

/-- The all-zero context: what reset and TDN leave (10_state.md R40, 44_context_commands.md R196). -/
def Context.zero : Context where
  tables := Tables.zero
  mode := .ecb
  iv := ⟨0, 0⟩
  ctr := ⟨0, 0⟩
  ks := Vector.replicate 8 0#8
  off := 0
  weak := false
  life := .void

/-- The response registers after reset (10_state.md R40). -/
def ResponseRegs.zero : ResponseRegs := ⟨.success, 0, 0⟩

/-- The machine right after hardware reset (10_state.md R40, 70_reset_and_hazards.md R230): every register zero, `LIFE`
VOID; nothing in host memory listed, no host action pending. -/
def State.reset : State where
  ctx := Context.zero
  resp := ResponseRegs.zero
  mem := []
  platform := []
  host := []
  responses := []
  freeDraws := 0

end Sys2Proof.Machine
end

