-- ==== Sys2Proof/Machine/Ops.lean ====
section
/-! DEFINITION. The named operations that every command is written over: host memory (spec/00_scope.md R12, R13,
spec/20_memory.md), the register groups, the generic serial-reference loops (R73), and `finish`, the one way a command
ends (spec/44_context_commands.md R181). -/

namespace Sys2Proof.Machine

/-! ## Host memory -/

/-- The byte at an address: `MemRead(a, 1)` (R13). -/
def Memory.read : Memory → Nat → Byte
  | [], _ => Config.unlistedByte
  | (k, v) :: m, a => if k = a then v else Memory.read m a

/-- Put an entry in its place among rising addresses. -/
def Memory.insert : Memory → Nat → Byte → Memory
  | [], a, v => [(a, v)]
  | (k, w) :: m, a, v => if a < k then (a, v) :: (k, w) :: m else (k, w) :: Memory.insert m a v

/-- Write one byte: `MemWrite(a, 1, v)` (R13). The old entry at `a` goes; the new one is listed unless it is what an
unlisted address reads as. -/
def Memory.write (m : Memory) (a : Nat) (v : Byte) : Memory :=
  let rest := m.filter fun c => c.1 != a
  if v = Config.unlistedByte then rest else Memory.insert rest a v

/-- The canonical form: addresses strictly rising, no entry equal to what an unlisted address reads as. -/
abbrev Memory.wf (m : Memory) : Prop :=
  m.Pairwise (fun c d => c.1 < d.1) ∧ ∀ c ∈ m, c.2 ≠ Config.unlistedByte

/-- Every listed address exists (20_memory.md R60). -/
abbrev Memory.inSpace (m : Memory) : Prop := ∀ c ∈ m, c.1 < Config.addressSpace

/-- `MemRead(a, n)`: the `n` bytes from `a` up, in ascending address order (R13). -/
def memRead (m : Memory) (a : Nat) : Nat → List Byte
  | 0 => []
  | n + 1 => Memory.read m a :: memRead m (a + 1) n

/-- `MemWrite(a, n, v)`: write a list of bytes in ascending address order (R13). -/
def memWrite (m : Memory) (a : Nat) : List Byte → Memory
  | [] => m
  | v :: vs => memWrite (Memory.write m a v) (a + 1) vs

/-- `MemRead32BE(a)` (R13). -/
def memRead32BE (m : Memory) (a : Nat) : Word :=
  be32 (Memory.read m a) (Memory.read m (a + 1)) (Memory.read m (a + 2)) (Memory.read m (a + 3))

/-- `MemWrite32BE(a, w)` (R13). -/
def memWrite32BE (m : Memory) (a : Nat) (w : Word) : Memory := memWrite m a (unbe32 w)

/-- The 8-byte block at an address (20_memory.md R64). -/
def memReadBlock (m : Memory) (a : Nat) : Block := ⟨memRead32BE m a, memRead32BE m (a + 4)⟩

/-- Write a block back: `MemWrite32BE(a, L); MemWrite32BE(a + 4, R)` (20_memory.md R64). -/
def memWriteBlock (m : Memory) (a : Nat) (b : Block) : Memory :=
  memWrite32BE (memWrite32BE m a b.l) (a + 4) b.r

/-! ## Registers -/

/-- `RESULT <- code` (10_state.md R30). -/
def State.setResult (s : State) (code : ResultCode) : State := { s with resp := { s.resp with result := code } }

/-- `LIFE <- life` (10_state.md R31). -/
def State.setLife (s : State) (life : Life) : State := { s with ctx := { s.ctx with life := life } }

/-- `(XL, XR) <- b` (10_state.md R30). -/
def State.setBlockResult (s : State) (b : Block) : State := { s with resp := { s.resp with xl := b.l, xr := b.r } }

/-- Replace the whole cipher context. -/
def State.setCtx (s : State) (c : Context) : State := { s with ctx := c }

/-- Replace host memory. -/
def State.setMem (s : State) (m : Memory) : State := { s with mem := m }

/-- `(IVL, IVR) <- b` (10_state.md R25). -/
def Context.setIv (c : Context) (b : Block) : Context := { c with iv := b }

/-- `(CTRL, CTRR) <- b` (10_state.md R26). -/
def Context.setCtr (c : Context) (b : Block) : Context := { c with ctr := b }

/-- `KS[0..3] <- UNBE32(L); KS[4..7] <- UNBE32(R)` (10_state.md R27). -/
def Context.setKeystream (c : Context) (b : Block) : Context :=
  { c with ks := #v[wordByte b.l 0, wordByte b.l 1, wordByte b.l 2, wordByte b.l 3,
                    wordByte b.r 0, wordByte b.r 1, wordByte b.r 2, wordByte b.r 3] }

/-- `KS[0..7] <- 0; OFF <- 0`: no unused keystream byte is held (10_state.md R27, R28). -/
def Context.clearStream (c : Context) : Context := { c with ks := Vector.replicate 8 0#8, off := 0 }

/-- `OFF <- (OFF + 1) mod 8` (10_state.md R28). -/
def Context.advanceOff (c : Context) : Context := { c with off := c.off + 1 }

/-- The value of `MODE` as three bits (10_state.md R24). -/
def Mode.tag : Mode → BitVec 3
  | .ecb => 0
  | .cbc => 1
  | .cfb => 2
  | .ofb => 3
  | .ctr => 4

/-- The value of `LIFE` as two bits (10_state.md R31). -/
def Life.bits : Life → BitVec 2
  | .void => 0
  | .ready => 1
  | .failed => 2

/-- The value of `RESULT` as three bits (60_exceptions.md R201). -/
def ResultCode.bits : ResultCode → BitVec 3
  | .success => 0
  | .invalidParameter => 1
  | .invalidKey => 2
  | .weakKey => 3
  | .badBufferLength => 4
  | .invalidMode => 5
  | .testFailed => 6

/-- The response of a command, read from the response registers (30_encoding.md R84). -/
def responseOf (r : ResponseRegs) : Response := ⟨r.result.bits.setWidth 32, r.xl, r.xr⟩

/-! ## Ending a command: the engine's form of an exception -/

/-- Every code but Success and WeakKey is an error (R181, R201). -/
def ResultCode.isError : ResultCode → Bool
  | .success => false
  | .weakKey => false
  | _ => true

/-- `finish(code)` (R181): `RESULT <- code`; an error of INIT, or of any command on a READY context, makes the context
FAILED. This is the whole of "trap entry" (60_exceptions.md R200, R212: nothing is saved and control goes nowhere);
there is no return from it (R213). -/
def endCommand (isInit : Bool) (code : ResultCode) (s : State) : State :=
  if code.isError && (isInit || s.ctx.life == .ready) then (s.setResult code).setLife .failed else s.setResult code

/-- `finish(code)` of a command other than INIT. -/
def finish (code : ResultCode) (s : State) : State := endCommand false code s

/-- `finish(code)` of INIT. -/
def finishInit (code : ResultCode) (s : State) : State := endCommand true code s

/-- The effect of an illegal descriptor (30_encoding.md R90): `RESULT <- InvalidParameter` and nothing else. -/
def illegalDescriptor (s : State) : State := s.setResult .invalidParameter

/-! ## The serial reference (20_memory.md R69, R73) -/

/-- `n` blocks in ascending order, the first at `inp` and `out`: read block, compute, write block. `unit` computes one
block from the context of the moment. -/
def blockLoop (unit : Context → Block → Context × Block) (inp out : Nat) : Nat → State → State
  | 0, s => s
  | n + 1, s =>
    let y := unit s.ctx (memReadBlock s.mem inp)
    blockLoop unit (inp + 8) (out + 8) n ((s.setCtx y.1).setMem (memWriteBlock s.mem out y.2))

/-- `n` bytes in ascending order, the first at `inp` and `out`: read byte, compute, write byte. -/
def byteLoop (unit : Context → Byte → Context × Byte) (inp out : Nat) : Nat → State → State
  | 0, s => s
  | n + 1, s =>
    let y := unit s.ctx (Memory.read s.mem inp)
    byteLoop unit (inp + 1) (out + 1) n ((s.setCtx y.1).setMem (Memory.write s.mem out y.2))

end Sys2Proof.Machine
end

