-- ==== Sys2Proof/Machine/BlockCipher.lean ====
section
/-! DEFINITION. The round primitive, the block encipher and decipher, and the commands ENC and DEC
(spec/40_round_and_block.md). -/

namespace Sys2Proof.Machine

/-- `S[j][b]` (10_state.md R22); a byte always indexes inside the table (R101). -/
def sboxEntry (s : Vector (Vector Word 256) 4) (j : Fin 4) (b : Byte) : Word := (s[j])[b.toNat]'b.isLt

/-- `F(x)` (R101): first add, then XOR, then add, all modulo 2^32. -/
def roundF (s : Vector (Vector Word 256) 4) (x : Word) : Word :=
  ((sboxEntry s 0 (wordByte x 0) + sboxEntry s 1 (wordByte x 1)) ^^^ sboxEntry s 2 (wordByte x 2))
    + sboxEntry s 3 (wordByte x 3)

/-- One iteration of the loop of R102 and R103 with subkey `k`:
`L <- L XOR k; R <- R XOR F(L); swap(L, R)`. -/
def feistelRound (s : Vector (Vector Word 256) 4) (b : Block) (k : Word) : Block :=
  let l := b.l ^^^ k
  ⟨b.r ^^^ roundF s l, l⟩

/-- What follows the loop: undo the last swap, then `R <- R XOR kr; L <- L XOR kl` (R102, R103). -/
def feistelEnd (kl kr : Word) (b : Block) : Block := ⟨b.r ^^^ kl, b.l ^^^ kr⟩

/-- The subkeys of the loop of `EncBlock` in order: `P[0]` to `P[15]` (R102). -/
def encSubkeys (p : Vector Word 18) : List Word := p.toList.take 16

/-- The subkeys of the loop of `DecBlock` in order: `P[17]` down to `P[2]` (R103). -/
def decSubkeys (p : Vector Word 18) : List Word := (p.toList.drop 2).reverse

/-- `EncBlock(L, R)` (R102). -/
def encBlock (t : Tables) (b : Block) : Block :=
  feistelEnd t.p[17] t.p[16] ((encSubkeys t.p).foldl (feistelRound t.s) b)

/-- `DecBlock(L, R)` (R103). -/
def decBlock (t : Tables) (b : Block) : Block :=
  feistelEnd t.p[0] t.p[1] ((decSubkeys t.p).foldl (feistelRound t.s) b)

/-- ENC (R105): behind the lifecycle gate (44_context_commands.md R182), `(XL, XR) <- EncBlock(L, R)`. -/
def execEnc (l r : Word) (s : State) : Host.Outcome State Fault Refusal :=
  if s.ctx.life = .ready then
    .next (finish .success (s.setBlockResult (encBlock s.ctx.tables ⟨l, r⟩)))
  else .next (finish .invalidParameter s)

/-- DEC (R106): behind the lifecycle gate, `(XL, XR) <- DecBlock(L, R)`. -/
def execDec (l r : Word) (s : State) : Host.Outcome State Fault Refusal :=
  if s.ctx.life = .ready then
    .next (finish .success (s.setBlockResult (decBlock s.ctx.tables ⟨l, r⟩)))
  else .next (finish .invalidParameter s)

end Sys2Proof.Machine
end

