-- ==== Sys2Proof/Machine/BlockModes.lean ====
section
/-! DEFINITION. The block modes ECB and CBC (spec/42_modes_ecb_cbc.md R145 to R148), one block at a time, driven by the
serial reference `blockLoop`. -/

namespace Sys2Proof.Machine

/-- One block of `EcbEnc` (R145). -/
def ecbEncUnit (c : Context) (b : Block) : Context × Block := (c, encBlock c.tables b)

/-- One block of `EcbDec` (R146). -/
def ecbDecUnit (c : Context) (b : Block) : Context × Block := (c, decBlock c.tables b)

/-- One block of `CbcEnc` (R147): the ciphertext block is the next chaining value. -/
def cbcEncUnit (c : Context) (b : Block) : Context × Block :=
  let y := encBlock c.tables (xorBlock b c.iv)
  (c.setIv y, y)

/-- One block of `CbcDec` (R148): the ciphertext block read is the next chaining value. -/
def cbcDecUnit (c : Context) (b : Block) : Context × Block :=
  (c.setIv b, xorBlock (decBlock c.tables b) c.iv)

/-- `EcbEnc(IN, OUT, LEN)` (R145). -/
def ecbEnc (inp out len : Nat) (s : State) : State := blockLoop ecbEncUnit inp out (len / 8) s

/-- `EcbDec(IN, OUT, LEN)` (R146). -/
def ecbDec (inp out len : Nat) (s : State) : State := blockLoop ecbDecUnit inp out (len / 8) s

/-- `CbcEnc(IN, OUT, LEN)` (R147). -/
def cbcEnc (inp out len : Nat) (s : State) : State := blockLoop cbcEncUnit inp out (len / 8) s

/-- `CbcDec(IN, OUT, LEN)` (R148). -/
def cbcDec (inp out len : Nat) (s : State) : State := blockLoop cbcDecUnit inp out (len / 8) s

end Sys2Proof.Machine
end

