-- ==== Sys2Proof/Machine/Operands.lean ====
section
/-! DEFINITION. The operands of the commands: null addresses (spec/20_memory.md R61), the ranges of INIT's operands
(spec/44_context_commands.md R184, R185), and the regions of a command (spec/20_memory.md R62, R63, R71, R72). -/

namespace Sys2Proof.Machine

/-- The address operand is `NULL` (20_memory.md R61). -/
def isNull (a : Nat) : Bool := a == Config.null

/-- `1 ≤ KLEN ≤ 56` (R184). -/
def keyLengthOk (klen : Nat) : Bool := 1 ≤ klen && klen ≤ 56

/-- The mode of a mode tag operand; none when "mode tag out of range" (R184, 10_state.md R24). -/
def modeOfTag : Nat → Option Mode
  | 0 => some .ecb
  | 1 => some .cbc
  | 2 => some .cfb
  | 3 => some .ofb
  | 4 => some .ctr
  | _ => none

/-- `need_iv`: the mode is CBC, CFB or OFB (R183, R185, R191). -/
def Mode.usesIv : Mode → Bool
  | .cbc => true
  | .cfb => true
  | .ofb => true
  | .ecb => false
  | .ctr => false

/-- `need_ctr`: the mode is CTR (R183, R185, R191). -/
def Mode.usesCtr : Mode → Bool
  | .ctr => true
  | .ecb => false
  | .cbc => false
  | .cfb => false
  | .ofb => false

/-- The block modes, whose `LEN` is a multiple of 8 (42_modes_ecb_cbc.md R141). -/
def Mode.isBlockMode : Mode → Bool
  | .ecb => true
  | .cbc => true
  | .cfb => false
  | .ofb => false
  | .ctr => false

/-- No address lies in both `[a, a+m)` and `[b, b+n)`. -/
def disjoint (a m b n : Nat) : Bool := m == 0 || n == 0 || a + m ≤ b || b + n ≤ a

/-- `base ≥ 1` and `base + len ≤ 2^AW` (R63). -/
def regionFits (base len : Nat) : Bool := 1 ≤ base && base + len ≤ Config.addressSpace

/-- Every byte of the region is plain readable memory (R63, R71). -/
def platformReadable (holes : List Hole) (base len : Nat) : Bool :=
  holes.all fun h => h.kind == .readOnly || disjoint h.base h.size base len

/-- Every byte of the region is plain writable memory (R63, R71). -/
def platformWritable (holes : List Hole) (base len : Nat) : Bool :=
  holes.all fun h => disjoint h.base h.size base len

/-- Why a region that a command reads has no meaning, if it has none (R63, U3). -/
def readRefusal (holes : List Hole) (base len : Nat) : Option Refusal :=
  if regionFits base len then
    if platformReadable holes base len then none else some .regionNotReadable
  else some .regionOutsideAddressSpace

/-- Why a region that a command writes has no meaning, if it has none (R63, U3). -/
def writeRefusal (holes : List Hole) (base len : Nat) : Option Refusal :=
  if regionFits base len then
    if platformWritable holes base len then none else some .regionNotWritable
  else some .regionOutsideAddressSpace

/-- The placements of input and output that are defined: equal, or disjoint (R72). -/
def placementOk (inp out len : Nat) : Bool := out == inp || disjoint inp len out len

/-- Why the regions of ENCB or DECB have no meaning, if they have none (R62, R63, R72). -/
def bufferRefusal (holes : List Hole) (inp out len : Nat) : Option Refusal :=
  (readRefusal holes inp len).or <| (writeRefusal holes out len).or <|
    if placementOk inp out len then none else some .partialOverlap

end Sys2Proof.Machine
end

