-- ==== Sys2Proof/Machine/StreamModes.lean ====
section
/-! DEFINITION. The keystream state machine and the stream modes CFB, OFB, CTR (spec/43_modes_stream.md R160 to R167). -/

namespace Sys2Proof.Machine

/-- The direction of a buffer command: ENCB or DECB (42_modes_ecb_cbc.md R141). -/
inductive Dir where
  | enc
  | dec
deriving DecidableEq, Repr

/-- `CTR64 +64 1` (R165): wraps silently. -/
def incrementBlock (b : Block) : Block := blockOfValue (blockValue b + 1)

/-- `Refill()` (R161). In ECB and CBC it is never called (R141); it then does nothing (notes/assumptions/11.md). -/
def refill (c : Context) : Context :=
  match c.mode with
  | .cfb => c.setKeystream (encBlock c.tables c.iv)
  | .ofb =>
    let y := encBlock c.tables c.iv
    (c.setIv y).setKeystream y
  | .ctr => (c.setCtr (incrementBlock c.ctr)).setKeystream (encBlock c.tables c.ctr)
  | .ecb => c
  | .cbc => c

/-- `IV64 <- (IV64 << 8)[63:0] XOR zext_64(c)` (R162, R163). -/
def shiftIn (iv : Block) (c : Byte) : Block := blockOfValue ((blockValue iv <<< 8) ^^^ c.setWidth 64)

/-- The byte that CFB shifts into the IV register: the ciphertext byte, whichever side it is on (R162). -/
def feedbackByte (dir : Dir) (x y : Byte) : Byte :=
  match dir with
  | .enc => y
  | .dec => x

/-- `StreamByte(x, dir)` once `OFF` points into a fresh or partly used block (R162, after its first line). -/
def useKeystream (dir : Dir) (c : Context) (x : Byte) : Context × Byte :=
  let y := x ^^^ c.ks[c.off]
  let c' := if c.mode = .cfb then c.setIv (shiftIn c.iv (feedbackByte dir x y)) else c
  (c'.advanceOff, y)

/-- `StreamByte(x, dir)` (R162). -/
def streamByte (dir : Dir) (c : Context) (x : Byte) : Context × Byte :=
  useKeystream dir (if c.off = 0 then refill c else c) x

/-- `CfbEnc(IN, OUT, LEN)` (R163). -/
def cfbEnc (inp out len : Nat) (s : State) : State := byteLoop (streamByte .enc) inp out len s

/-- `CfbDec(IN, OUT, LEN)` (R164). -/
def cfbDec (inp out len : Nat) (s : State) : State := byteLoop (streamByte .dec) inp out len s

/-- `OfbXor(IN, OUT, LEN)`: one routine for both directions (R166). -/
def ofbXor (inp out len : Nat) (s : State) : State := byteLoop (streamByte .enc) inp out len s

/-- `CtrXor(IN, OUT, LEN)`: one routine for both directions (R167). -/
def ctrXor (inp out len : Nat) (s : State) : State := byteLoop (streamByte .enc) inp out len s

end Sys2Proof.Machine
end

