-- ==== Sys2Proof/Machine/BufferCommands.lean ====
section
/-! DEFINITION. The buffer commands ENCB and DECB: the frame common to the five modes
(spec/42_modes_ecb_cbc.md R141 to R144). -/

namespace Sys2Proof.Machine

/-- The `case (MODE, dir)` of R141. -/
def runMode (dir : Dir) (inp out len : Nat) (s : State) : State :=
  match s.ctx.mode, dir with
  | .ecb, .enc => ecbEnc inp out len s
  | .ecb, .dec => ecbDec inp out len s
  | .cbc, .enc => cbcEnc inp out len s
  | .cbc, .dec => cbcDec inp out len s
  | .cfb, .enc => cfbEnc inp out len s
  | .cfb, .dec => cfbDec inp out len s
  | .ofb, _ => ofbXor inp out len s
  | .ctr, _ => ctrXor inp out len s

/-- The three checks of R141 in their order; none when all pass. -/
def bufferError (inp out len : Nat) (s : State) : Option ResultCode :=
  if s.ctx.life ≠ .ready then some .invalidParameter
  else if isNull inp || isNull out then some .invalidParameter
  else if s.ctx.mode.isBlockMode && len % 8 ≠ 0 then some .badBufferLength
  else none

/-- `BUF(dir, IN, OUT, LEN)` (R141). Regions without a meaning are refused once every check has passed
(20_memory.md R62, R63, R72; notes/assumptions/4.md). -/
def bufferCommand (dir : Dir) (inp out len : Nat) (s : State) : Host.Outcome State Fault Refusal :=
  match bufferError inp out len s with
  | some code => .next (finish code s)
  | none =>
    match bufferRefusal s.platform inp out len with
    | some r => .refused r
    | none => .next (finish .success (runMode dir inp out len s))

/-- ENCB (R141). -/
def execEncb (inp out len : Nat) (s : State) : Host.Outcome State Fault Refusal := bufferCommand .enc inp out len s

/-- DECB (R141). -/
def execDecb (inp out len : Nat) (s : State) : Host.Outcome State Fault Refusal := bufferCommand .dec inp out len s

end Sys2Proof.Machine
end

