-- ==== Sys2Proof/Machine/Flags.lean ====
section
/-! DEFINITION. The one status flag of the engine, `WEAK` (spec/10_state.md R29, R37), as the key schedule computes it
(spec/41_key_schedule.md R126). There are no condition codes (R37). -/

namespace Sys2Proof.Machine

/-- `WEAK`: some two of the 18 entries of `P` are equal (R126). -/
def weakFlag (p : Vector Word 18) : Bool := !decide p.toList.Nodup

/-- The code of an INIT that passed every check: WeakKey if `WEAK`, else Success (44_context_commands.md R187). -/
def initCode (weak : Bool) : ResultCode := if weak then .weakKey else .success

end Sys2Proof.Machine
end

