-- ==== Sys2Proof/Machine/KeySchedule.lean ====
section
/-! DEFINITION. `KeySchedule(K)` (spec/41_key_schedule.md R121 to R125); step 5, the weak-key flag, is
`weakFlag` of Machine/Flags.lean (R126). -/

namespace Sys2Proof.Machine

/-- `KeyWord(K, i)` (R122): four consecutive bytes of the key read cyclically, from stream byte `4*i`. -/
def keyWord (key : List Byte) (i : Nat) : Word :=
  let byte (j : Nat) : Byte := key.getD ((4 * i + j) % key.length) 0
  be32 (byte 0) (byte 1) (byte 2) (byte 3)

/-- Steps 1 and 2 (R121, R122): the π constants, with the key XORed into `P`. -/
def keyedTables (key : List Byte) : Tables :=
  ⟨piP.mapIdx fun i w => w ^^^ keyWord key i, piS⟩

/-- The key schedule at work: the tables of the moment and the running block `(L, R)` (R123, R125). -/
structure Schedule where
  /-- the `P` and `S` of this moment -/
  tables : Tables
  /-- the running block -/
  block : Block
deriving DecidableEq, Repr

/-- `P[2*i] <- L; P[2*i + 1] <- R` (R123). -/
def setSubkeyPair (t : Tables) (i : Nat) (b : Block) : Tables :=
  { t with p := (t.p.setIfInBounds (2 * i) b.l).setIfInBounds (2 * i + 1) b.r }

/-- `S[j][2*i] <- L; S[j][2*i + 1] <- R` (R124). -/
def setSboxPair (t : Tables) (j : Fin 4) (i : Nat) (b : Block) : Tables :=
  { t with s := t.s.set j (((t.s[j]).setIfInBounds (2 * i) b.l).setIfInBounds (2 * i + 1) b.r) }

/-- One iteration of step 3 (R123): encipher the running block with the tables of the moment, store it in `P`. -/
def subkeyStep (w : Schedule) (i : Nat) : Schedule :=
  let b := encBlock w.tables w.block
  ⟨setSubkeyPair w.tables i b, b⟩

/-- One iteration of step 4 for S-box `j` (R124): encipher the running block, store it in `S[j]`. -/
def sboxStep (j : Fin 4) (w : Schedule) (i : Nat) : Schedule :=
  let b := encBlock w.tables w.block
  ⟨setSboxPair w.tables j i b, b⟩

/-- Step 3: `i` from 0 to 8, the running block starting at zero (R123). -/
def subkeyPass (t : Tables) : Schedule := (List.range 9).foldl subkeyStep ⟨t, ⟨0, 0⟩⟩

/-- Step 4 for one S-box: `i` from 0 to 127 (R124). -/
def sboxPass (w : Schedule) (j : Fin 4) : Schedule := (List.range 128).foldl (sboxStep j) w

/-- `KeySchedule(K)`, steps 1 to 4 (R121); the running block carries across all of steps 3 and 4 (R124).
(Irreducible for Lean's elaborator, which would otherwise try to run it; the kernel and `unfold` see through it.) -/
@[irreducible] def keySchedule (key : List Byte) : Tables :=
  ([0, 1, 2, 3].foldl sboxPass (subkeyPass (keyedTables key))).tables

end Sys2Proof.Machine
end

