-- ==== Sys2Proof/Machine/ContextCommands.lean ====
section
/-! DEFINITION. The context commands INIT, RSTIV, RSTCTR, TDN (spec/44_context_commands.md R183 to R196). -/

namespace Sys2Proof.Machine

/-- An address operand is given exactly when the mode uses it (R185). -/
def presenceOk (a : Nat) (needed : Bool) : Bool := !isNull a == needed

/-- INIT's checks in the order of R183 and 60_exceptions.md R210: the mode to install, or the code of the first check
that fails. -/
def initChecks (mode klen key iva cta : Nat) : Except ResultCode Mode :=
  if isNull key then .error .invalidParameter
  else if !keyLengthOk klen then .error .invalidKey
  else
    match modeOfTag mode with
    | none => .error .invalidMode
    | some m =>
      if !presenceOk iva m.usesIv then .error .invalidParameter
      else if !presenceOk cta m.usesCtr then .error .invalidParameter
      else .ok m

/-- Why the regions that INIT reads have no meaning, if they have none (20_memory.md R62, R63). -/
def initRefusal (holes : List Hole) (m : Mode) (klen key iva cta : Nat) : Option Refusal :=
  (readRefusal holes key klen).or <|
    (if m.usesIv then readRefusal holes iva 8 else none).or <|
      if m.usesCtr then readRefusal holes cta 8 else none

/-- The context that INIT installs (R183 phase 3, R186): every register is written, those the mode does not use to
zero. -/
def initContext (m : Mode) (key : List Byte) (iv ctr : Block) : Context :=
  let t := keySchedule key
  { tables := t
    mode := m
    iv := iv
    ctr := ctr
    ks := Vector.replicate 8 0#8
    off := 0
    weak := weakFlag t.p
    life := .ready }

/-- Phases 2 and 3 of INIT (R183): read the key, the IV and the counter, install the context, report R187's code. -/
def initInstall (m : Mode) (klen key iva cta : Nat) (s : State) : State :=
  let iv : Block := if m.usesIv then memReadBlock s.mem iva else ⟨0, 0⟩
  let ctr : Block := if m.usesCtr then memReadBlock s.mem cta else ⟨0, 0⟩
  let c := initContext m (memRead s.mem key klen) iv ctr
  finishInit (initCode c.weak) (s.setCtx c)

/-- INIT (R183), admitted in every lifecycle state (R188). -/
def execInit (mode klen key iva cta : Nat) (s : State) : Host.Outcome State Fault Refusal :=
  match initChecks mode klen key iva cta with
  | .error code => .next (finishInit code s)
  | .ok m =>
    match initRefusal s.platform m klen key iva cta with
    | some r => .refused r
    | none => .next (initInstall m klen key iva cta s)

/-- RSTIV (R190, R191). -/
def execRstiv (iva : Nat) (s : State) : Host.Outcome State Fault Refusal :=
  if s.ctx.life ≠ .ready || isNull iva || !s.ctx.mode.usesIv then .next (finish .invalidParameter s)
  else
    match readRefusal s.platform iva 8 with
    | some r => .refused r
    | none => .next (finish .success (s.setCtx (s.ctx.setIv (memReadBlock s.mem iva)).clearStream))

/-- RSTCTR (R193, R191). -/
def execRstctr (cta : Nat) (s : State) : Host.Outcome State Fault Refusal :=
  if s.ctx.life ≠ .ready || isNull cta || !s.ctx.mode.usesCtr then .next (finish .invalidParameter s)
  else
    match readRefusal s.platform cta 8 with
    | some r => .refused r
    | none => .next (finish .success (s.setCtx (s.ctx.setCtr (memReadBlock s.mem cta)).clearStream))

/-- TDN (R196): the whole context becomes zero, `LIFE` VOID; always Success. -/
def execTdn (s : State) : Host.Outcome State Fault Refusal := .next (finish .success (s.setCtx Context.zero))

end Sys2Proof.Machine
end

