-- ==== Sys2Proof/Machine/Dispatch.lean ====
section
/-! DEFINITION. One arm per command of spec/30_encoding.md R82. -/

namespace Sys2Proof.Machine

/-- What a command does. -/
def exec (i : Instr) (s : State) : Host.Outcome State Fault Refusal :=
  match i with
  | .init mode klen key iva cta => Sys2Proof.Machine.execInit mode klen key iva cta s
  | .rstiv iva => Sys2Proof.Machine.execRstiv iva s
  | .rstctr cta => Sys2Proof.Machine.execRstctr cta s
  | .encb inp out len => Sys2Proof.Machine.execEncb inp out len s
  | .decb inp out len => Sys2Proof.Machine.execDecb inp out len s
  | .enc l r => Sys2Proof.Machine.execEnc l r s
  | .dec l r => Sys2Proof.Machine.execDec l r s
  | .tdn => Sys2Proof.Machine.execTdn s

end Sys2Proof.Machine
end

