-- ==== Sys2Proof/Machine/Port.lean ====
section
/-! DEFINITION. The command port: what each action of the host does to the machine
(spec/70_reset_and_hazards.md R230, R231, R235; spec/30_encoding.md R84, R90). -/

namespace Sys2Proof.Machine

/-- The effect of a descriptor, without its response: that of the command it decodes to, or that of an illegal
descriptor (R90). -/
def runDescriptor (d : Descriptor) (s : State) : Host.Outcome State Fault Refusal :=
  match decode d with
  | .ok i => exec i s
  | .error _ => .next (illegalDescriptor s)

/-- Return the response: "Every command, legal or not, returns one response" (R84). -/
def respond (s : State) : State := { s with responses := s.responses ++ [responseOf s.resp] }

/-- The host presents a descriptor: the command runs to completion, then its response is returned
(00_scope.md R8, 20_memory.md R76). -/
def presentCommand (d : Descriptor) (s : State) : Host.Outcome State Fault Refusal :=
  match runDescriptor d s with
  | .next t => .next (respond t)
  | .fault r => .fault r
  | .refused r => .refused r

/-- Hardware reset (R230): every register of the engine takes its reset value; host memory keeps its contents (R249). -/
def hardwareReset (s : State) : State := { s with ctx := Context.zero, resp := ResponseRegs.zero }

/-- The output region of a command: the bytes it may write (20_memory.md R62). -/
def outputRegion : Instr → Nat × Nat
  | .encb _ out len => (out, len)
  | .decb _ out len => (out, len)
  | .init _ _ _ _ _ => (0, 0)
  | .rstiv _ => (0, 0)
  | .rstctr _ => (0, 0)
  | .enc _ _ => (0, 0)
  | .dec _ _ => (0, 0)
  | .tdn => (0, 0)

/-- Host memory when a reset interrupts a command that would have turned `old` into `new`: each of the `n` bytes from
`a` up holds its old value or its new one, as the free value of the `draw`-th interrupted command says (R231, U6). -/
def interruptedMemory (draw : Nat) (old new : Memory) (a : Nat) : Nat → Memory
  | 0 => old
  | n + 1 =>
    let m := interruptedMemory draw old new a n
    if Config.interruptedByteIsNew draw (a + n) then Memory.write m (a + n) (Memory.read new (a + n)) else m

/-- Host memory after a reset during the command `i`, which completed would have left `t`: a command that ends in error
writes nothing (44_context_commands.md R180). -/
def abandonedMemory (i : Instr) (s t : State) : Memory :=
  if t.resp.result = .success then
    interruptedMemory s.freeDraws s.mem t.mem (outputRegion i).1 (outputRegion i).2
  else s.mem

/-- Hardware reset while a command executes (R231): the command is abandoned and returns no response, the engine is in
the reset state, and only bytes of the output region may have changed. A command without a meaning is refused as it is
without the reset. -/
def resetDuringCommand (d : Descriptor) (s : State) : Host.Outcome State Fault Refusal :=
  match decode d with
  | .error _ => .next (hardwareReset s)
  | .ok i =>
    match exec i s with
    | .next t => .next (hardwareReset { s with mem := abandonedMemory i s t, freeDraws := s.freeDraws + 1 })
    | .fault r => .fault r
    | .refused r => .refused r

/-- The host writes a byte of its memory between commands (R235). Where the platform gives no plain writable memory the
spec gives the write no effect (20_memory.md R63; notes/assumptions/15.md). -/
def hostWrite (a : Word) (v : Byte) (s : State) : Host.Outcome State Fault Refusal :=
  if platformWritable s.platform a.toNat 1 then .next (s.setMem (Memory.write s.mem a.toNat v))
  else .refused .regionNotWritable

/-- What one action of the host does. -/
def runAction (x : HostAction) (s : State) : Host.Outcome State Fault Refusal :=
  match x with
  | .present d => presentCommand d s
  | .write a v => hostWrite a v s
  | .reset => .next (hardwareReset s)
  | .resetDuring d => resetDuringCommand d s

/-- The host's next action is to present the descriptor `d`. -/
def State.withCommand (s : State) (d : Descriptor) : State := { s with host := .present d :: s.host }

end Sys2Proof.Machine
end

