-- ==== Sys2Proof/Machine/Step.lean ====
section
/-! DEFINITION. One step: the machine takes the host's next action, or, with none pending, does nothing
(spec/70_reset_and_hazards.md R230, R235, R236). -/

namespace Sys2Proof.Machine

/-- One step of the machine. -/
def step (s : State) : Host.Outcome State Fault Refusal :=
  match s.host with
  | [] => .next s
  | x :: rest => runAction x { s with host := rest }

/-- The state whose next step runs the table's instruction (notes/assumptions/2.md, 3.md): the engine fetches nothing,
so the host presents the descriptor next. -/
def State.withFetchWord (s : State) (nbits w : Nat) : State := s.withCommand (tableDescriptor nbits w)

end Sys2Proof.Machine
end

