-- ==== Sys2Proof/Safety.lean ====
section
/-! DEFINITION. The terms that claims about the machine are stated in: the opcode table (spec/30_encoding.md R86), what
a command demands of its operands and its regions, the key schedule as a sequence of table states, the invariant of
every run, and what a host can tell apart. None of them is used by the machine. -/

namespace Sys2Proof.Machine

/-! ## The opcode table -/

/-- A row of the table of R86: mask and match, four words each. -/
structure OpcodeRow where
  mask : Descriptor
  value : Descriptor
deriving DecidableEq, Repr

/-- The row of a command (R86). -/
def opcodeRow : Instr → OpcodeRow
  | .init _ _ _ _ _ => ⟨⟨0xFF0000FF, 0, 0, 0⟩, ⟨0x01000000, 0, 0, 0⟩⟩
  | .rstiv _ => ⟨⟨0xFFFFFFFF, 0, 0xFFFFFFFF, 0xFFFFFFFF⟩, ⟨0x02000000, 0, 0, 0⟩⟩
  | .rstctr _ => ⟨⟨0xFFFFFFFF, 0, 0xFFFFFFFF, 0xFFFFFFFF⟩, ⟨0x03000000, 0, 0, 0⟩⟩
  | .encb _ _ _ => ⟨⟨0xFFFFFFFF, 0, 0, 0⟩, ⟨0x04000000, 0, 0, 0⟩⟩
  | .decb _ _ _ => ⟨⟨0xFFFFFFFF, 0, 0, 0⟩, ⟨0x05000000, 0, 0, 0⟩⟩
  | .enc _ _ => ⟨⟨0xFFFFFFFF, 0, 0, 0xFFFFFFFF⟩, ⟨0x06000000, 0, 0, 0⟩⟩
  | .dec _ _ => ⟨⟨0xFFFFFFFF, 0, 0, 0xFFFFFFFF⟩, ⟨0x07000000, 0, 0, 0⟩⟩
  | .tdn => ⟨⟨0xFFFFFFFF, 0xFFFFFFFF, 0xFFFFFFFF, 0xFFFFFFFF⟩, ⟨0x08000000, 0, 0, 0⟩⟩

/-- "a descriptor `d` selects the row when `d & mask = match`" (R85). -/
def OpcodeRow.selectedBy (row : OpcodeRow) (d : Descriptor) : Prop :=
  d.w0 &&& row.mask.w0 = row.value.w0 ∧ d.w1 &&& row.mask.w1 = row.value.w1 ∧
  d.w2 &&& row.mask.w2 = row.value.w2 ∧ d.w3 &&& row.mask.w3 = row.value.w3

/-! ## Operands and regions -/

/-- Every byte of the region lies in the address space and, by the platform, in memory that may be read
(20_memory.md R63, R71). -/
def ReadableRegion (s : State) (base len : Nat) : Prop :=
  1 ≤ base ∧ base + len ≤ 2 ^ 32 ∧
  ∀ h ∈ s.platform, h.kind ≠ .readOnly → ∀ a, base ≤ a → a < base + len → ¬ (h.base ≤ a ∧ a < h.base + h.size)

/-- Every byte of the region lies in the address space and, by the platform, in memory that may be written
(20_memory.md R63, R71). -/
def WritableRegion (s : State) (base len : Nat) : Prop :=
  1 ≤ base ∧ base + len ≤ 2 ^ 32 ∧
  ∀ h ∈ s.platform, ∀ a, base ≤ a → a < base + len → ¬ (h.base ≤ a ∧ a < h.base + h.size)

/-- "Two placements are defined": in place, or without a common byte (20_memory.md R72). -/
def DefinedPlacement (inp out len : Nat) : Prop :=
  out = inp ∨ ∀ a, ¬ ((inp ≤ a ∧ a < inp + len) ∧ (out ≤ a ∧ a < out + len))

/-- The regions of ENCB and DECB have a meaning (20_memory.md R62, R63, R72). -/
def ValidBuffers (s : State) (inp out len : Nat) : Prop :=
  ReadableRegion s inp len ∧ WritableRegion s out len ∧ DefinedPlacement inp out len

/-- Every check of the command passes (44_context_commands.md R180, R182 to R185, R190, R193; 42_modes_ecb_cbc.md R141;
40_round_and_block.md R105, R106): it then does not end in error. -/
def Accepted (i : Instr) (s : State) : Prop :=
  match i with
  | .init mode klen key iva cta =>
    key ≠ 0 ∧ 1 ≤ klen ∧ klen ≤ 56 ∧ mode ≤ 4 ∧ (iva ≠ 0 ↔ mode = 1 ∨ mode = 2 ∨ mode = 3) ∧ (cta ≠ 0 ↔ mode = 4)
  | .rstiv iva => s.ctx.life = .ready ∧ iva ≠ 0 ∧ (s.ctx.mode = .cbc ∨ s.ctx.mode = .cfb ∨ s.ctx.mode = .ofb)
  | .rstctr cta => s.ctx.life = .ready ∧ cta ≠ 0 ∧ s.ctx.mode = .ctr
  | .encb inp out len =>
    s.ctx.life = .ready ∧ inp ≠ 0 ∧ out ≠ 0 ∧ (s.ctx.mode = .ecb ∨ s.ctx.mode = .cbc → len % 8 = 0)
  | .decb inp out len =>
    s.ctx.life = .ready ∧ inp ≠ 0 ∧ out ≠ 0 ∧ (s.ctx.mode = .ecb ∨ s.ctx.mode = .cbc → len % 8 = 0)
  | .enc _ _ => s.ctx.life = .ready
  | .dec _ _ => s.ctx.life = .ready
  | .tdn => True

/-- The regions that the command accesses when it is accepted have a meaning (20_memory.md R62). -/
def ValidRegions (i : Instr) (s : State) : Prop :=
  match i with
  | .init mode klen key iva cta =>
    ReadableRegion s key klen ∧ (mode = 1 ∨ mode = 2 ∨ mode = 3 → ReadableRegion s iva 8) ∧
    (mode = 4 → ReadableRegion s cta 8)
  | .rstiv iva => ReadableRegion s iva 8
  | .rstctr cta => ReadableRegion s cta 8
  | .encb inp out len => ValidBuffers s inp out len
  | .decb inp out len => ValidBuffers s inp out len
  | .enc _ _ => True
  | .dec _ _ => True
  | .tdn => True

/-- ENCB (`.enc`) or DECB (`.dec`). -/
def bufferInstr : Dir → Nat → Nat → Nat → Instr
  | .enc, inp, out, len => .encb inp out len
  | .dec, inp, out, len => .decb inp out len

/-- ENCB or DECB over consecutive pieces of an input, one command a piece (43_modes_stream.md R168). -/
def runPieces (dir : Dir) : Nat → Nat → List Nat → State → Option State
  | _, _, [], s => some s
  | inp, out, n :: ns, s =>
    match exec (bufferInstr dir inp out n) s with
    | .next t => runPieces dir (inp + n) (out + n) ns t
    | .fault _ => none
    | .refused _ => none

/-! ## The key schedule as a sequence of 522 table states -/

/-- `w n` is the tables and the running block after `n` of the 521 encipherments (41_key_schedule.md R121 to R125). -/
structure ScheduleRun (key : List Byte) (w : Nat → Schedule) : Prop where
  /-- steps 1 and 2: the constants, with the cyclic key in `P` -/
  startP : ∀ i : Fin 18, (w 0).tables.p[i] = piP[i] ^^^
    be32 (key.getD ((4 * i) % key.length) 0) (key.getD ((4 * i + 1) % key.length) 0)
      (key.getD ((4 * i + 2) % key.length) 0) (key.getD ((4 * i + 3) % key.length) 0)
  startS : (w 0).tables.s = piS
  startBlock : (w 0).block = ⟨0, 0⟩
  /-- each encipherment uses the tables of the moment and the block before it -/
  block : ∀ n, n < 521 → (w (n + 1)).block = encBlock (w n).tables (w n).block
  /-- step 3: encipherment `i` replaces `P[2i]` and `P[2i+1]` and nothing else -/
  subkeys : ∀ i, i < 9 → ∀ j : Fin 18, (w (i + 1)).tables.p[j] =
    if j.val = 2 * i then (w (i + 1)).block.l else if j.val = 2 * i + 1 then (w (i + 1)).block.r else (w i).tables.p[j]
  subkeysKeepS : ∀ i, i < 9 → (w (i + 1)).tables.s = (w i).tables.s
  /-- step 4: encipherment `9 + 128 j + i` replaces `S[j][2i]` and `S[j][2i+1]` and nothing else -/
  sboxes : ∀ j i, j < 4 → i < 128 → ∀ (b : Fin 4) (e : Fin 256), (w (9 + 128 * j + i + 1)).tables.s[b][e] =
    if b.val = j ∧ e.val = 2 * i then (w (9 + 128 * j + i + 1)).block.l
    else if b.val = j ∧ e.val = 2 * i + 1 then (w (9 + 128 * j + i + 1)).block.r
    else (w (9 + 128 * j + i)).tables.s[b][e]
  sboxesKeepP : ∀ n, 9 ≤ n → n < 521 → (w (n + 1)).tables.p = (w n).tables.p

/-! ## The invariant of every run -/

/-- Two of the 18 subkeys are equal (41_key_schedule.md R126). -/
def HasEqualSubkeys (p : Vector Word 18) : Prop := ∃ a b : Fin 18, a < b ∧ p[a] = p[b]

/-- What holds of a context that an INIT completed (10_state.md R33 items 1 to 4 and 6; 43_modes_stream.md R166). -/
structure CompleteContext (c : Context) : Prop where
  /-- R33 item 1 -/
  tables : ∃ key : List Byte, 1 ≤ key.length ∧ key.length ≤ 56 ∧ c.tables = keySchedule key
  /-- R33 item 3 -/
  weak : c.weak = true ↔ HasEqualSubkeys c.tables.p
  /-- R33 items 4 and 6 -/
  blockMode : c.mode = .ecb ∨ c.mode = .cbc → c.off = 0 ∧ c.ks = Vector.replicate 8 0#8
  /-- R33 item 6 -/
  noIv : c.mode = .ecb ∨ c.mode = .ctr → c.iv = ⟨0, 0⟩
  /-- R33 item 6 -/
  noCtr : c.mode ≠ .ctr → c.ctr = ⟨0, 0⟩
  /-- R166: "Whenever OFF ≠ 0, KS equals the bytes of IVL ‖ IVR" -/
  ofb : c.mode = .ofb → c.off ≠ 0 → c.ks.toList = blockBytes c.iv

/-- The invariant. -/
structure MachineInv (s : State) : Prop where
  /-- memory is in its canonical form -/
  memWf : Memory.wf s.mem
  /-- every listed address exists -/
  memInSpace : Memory.inSpace s.mem
  /-- a VOID context is all zero (44_context_commands.md R196, 70_reset_and_hazards.md R232) -/
  void : s.ctx.life = .void → s.ctx = Context.zero
  /-- a READY context is complete (10_state.md R33) -/
  ready : s.ctx.life = .ready → CompleteContext s.ctx
  /-- a FAILED context keeps what it had (44_context_commands.md R181, R189): a complete context, or zeros -/
  failed : s.ctx.life = .failed → CompleteContext s.ctx ∨ s.ctx = { Context.zero with life := .failed }
  /-- 6 and 7 are never reported (60_exceptions.md R201, R207) -/
  result : s.resp.result ≠ .testFailed
  /-- nor were they in any response -/
  responses : ∀ r ∈ s.responses, r.r0.toNat ≤ 5

/-! ## What a host can tell apart -/

/-- Two states that differ at most in the registers of a context that is not READY, `LIFE` apart (10_state.md R40). -/
structure SameToHost (s t : State) : Prop where
  resp : s.resp = t.resp
  mem : s.mem = t.mem
  platform : s.platform = t.platform
  host : s.host = t.host
  responses : s.responses = t.responses
  freeDraws : s.freeDraws = t.freeDraws
  life : s.ctx.life = t.ctx.life
  ready : s.ctx.life = .ready → s.ctx = t.ctx

end Sys2Proof.Machine
end

