-- ==== Sys2Proof/Certificates/Slice0/Obligations.lean ====
section
/-! DEFINITION. The statements about the machine. Each docstring names the rule of spec/ it formalises, or what it is
derived from. -/

open Sys2Proof Sys2Proof.Machine

/-! ## Descriptors and the command port -/

/-- Decoding the descriptor of a command gives the command back, for every command and every operand the encoding admits
(derived from 30_encoding.md R82, R83). -/
def Obligations.DecodeOfEncode : Prop :=
  ∀ i : Instr, i.wellFormed = true → decode (encode i) = .ok i

/-- A descriptor that decodes is the descriptor of what it decodes to, and its operands fit their fields: no bit of a legal
descriptor is dropped (derived from 30_encoding.md R82, R83, R90). -/
def Obligations.EncodeOfDecode : Prop :=
  ∀ (d : Descriptor) (i : Instr), decode d = .ok i → i.wellFormed = true ∧ encode i = d

/-- R85, R86: a descriptor decodes to a command of a row exactly when the row's mask and match select it, is illegal
exactly when no row does, and is selected by at most one row. -/
def Obligations.MaskAndMatchSelectTheCommand : Prop :=
  (∀ (i : Instr) (d : Descriptor),
    (∃ j, decode d = .ok j ∧ opcodeRow j = opcodeRow i) ↔ (opcodeRow i).selectedBy d) ∧
  (∀ d : Descriptor, (∃ e, decode d = .error e) ↔ ∀ i : Instr, ¬ (opcodeRow i).selectedBy d) ∧
  (∀ (i j : Instr) (d : Descriptor),
    (opcodeRow i).selectedBy d → (opcodeRow j).selectedBy d → opcodeRow i = opcodeRow j)

/-- R90: no row selects a descriptor exactly when its `OPC` is 0x00 or at least 0x09, its `RSV` is not zero, or a field or
word that must be zero is not; such a descriptor changes `RESULT` and nothing else, and its response is returned. -/
def Obligations.IllegalDescriptorSetsResultOnly : Prop :=
  (∀ d : Descriptor, (∀ i : Instr, ¬ (opcodeRow i).selectedBy d) ↔
    (d.opc.toNat = 0 ∨ 9 ≤ d.opc.toNat) ∨ d.rsv ≠ 0 ∨
    (2 ≤ d.opc.toNat ∧ (d.modeField ≠ 0 ∨ d.klenField ≠ 0)) ∨
    ((d.opc.toNat = 2 ∨ d.opc.toNat = 3) ∧ (d.w2 ≠ 0 ∨ d.w3 ≠ 0)) ∨
    ((d.opc.toNat = 6 ∨ d.opc.toNat = 7) ∧ d.w3 ≠ 0) ∨
    (d.opc.toNat = 8 ∧ (d.w1 ≠ 0 ∨ d.w2 ≠ 0 ∨ d.w3 ≠ 0))) ∧
  ∀ (s : State) (d : Descriptor) (rest : List HostAction), s.host = .present d :: rest →
    (∀ i : Instr, ¬ (opcodeRow i).selectedBy d) →
    step s = .next { s with
      host := rest
      resp := { s.resp with result := .invalidParameter }
      responses := s.responses ++ [⟨1, s.resp.xl, s.resp.xr⟩] }

/-- Presenting a legal descriptor runs the command it decodes to, and then returns the three words of the response
(derived from 00_scope.md R8, 20_memory.md R76, 30_encoding.md R84); a command without a meaning stops the step. -/
def Obligations.PresentedDescriptorRunsItsCommand : Prop :=
  ∀ (s : State) (d : Descriptor) (rest : List HostAction) (i : Instr),
    s.host = .present d :: rest → decode d = .ok i →
    (∀ t, exec i { s with host := rest } = .next t →
      step s = .next { t with
        responses := t.responses ++ [⟨t.resp.result.bits.setWidth 32, t.resp.xl, t.resp.xr⟩] }) ∧
    (∀ r, exec i { s with host := rest } = .refused r → step s = .refused r)

/-- The command that the decoder reads from the sixteen bytes of a table word is the one that runs when that word is
presented (derived from 30_encoding.md R80 and 20_memory.md R65; the numbering of the table's bits is log entry 3). -/
def Obligations.TableWordRunsAsDecoded : Prop :=
  ∀ (s : State) (nbits w : Nat) (i : Instr) (t : State), decodeTableWord nbits w = some i → exec i s = .next t →
    step (s.withFetchWord nbits w) = .next { t with
      responses := t.responses ++ [⟨t.resp.result.bits.setWidth 32, t.resp.xl, t.resp.xr⟩] }

/-- R94: the worked encodings. -/
def Obligations.WorkedEncodings : Prop :=
  encode (.init 1 8 0x1000 0x2000 0) = ⟨0x01010800, 0x00001000, 0x00002000, 0x00000000⟩ ∧
  decodeBytes [0x01, 0x01, 0x08, 0x00, 0x00, 0x00, 0x10, 0x00, 0x00, 0x00, 0x20, 0x00, 0x00, 0x00, 0x00, 0x00] =
    .ok (.init 1 8 0x1000 0x2000 0) ∧
  (encode (.init 1 8 0x1000 0x2000 0)).toBytes =
    [0x01, 0x01, 0x08, 0x00, 0x00, 0x00, 0x10, 0x00, 0x00, 0x00, 0x20, 0x00, 0x00, 0x00, 0x00, 0x00] ∧
  encode (.encb 0x3000 0x3000 16) = ⟨0x04000000, 0x00003000, 0x00003000, 0x00000010⟩ ∧
  encode (.enc 0 0) = ⟨0x06000000, 0, 0, 0⟩ ∧
  encode .tdn = ⟨0x08000000, 0, 0, 0⟩ ∧
  (∃ e, decode ⟨0, 0, 0, 0⟩ = .error e) ∧
  (∃ e, decode ⟨0x08000000, 0x00000001, 0, 0⟩ = .error e)

/-! ## Reset and the host's other actions -/

/-- Every register is zero after hardware reset, at power on and whenever the host asserts it, and with nothing presented
the engine does nothing (derived from 10_state.md R40, 70_reset_and_hazards.md R230). Host memory stays (R249). The
responses already returned stay: that State keeps the run's list of responses (R236) over a reset is the model's choice,
log entry 9, as is the list of the host's actions, log entry 2. -/
def Obligations.HardwareResetZeroesTheEngine : Prop :=
  (State.reset.ctx = Context.zero ∧ State.reset.resp = ⟨.success, 0, 0⟩) ∧
  (∀ s : State, ∀ rest, s.host = .reset :: rest →
    step s = .next { s with host := rest, ctx := Context.zero, resp := ⟨.success, 0, 0⟩ }) ∧
  (∀ s : State, s.host = [] → step s = .next s) ∧
  (∀ i : Fin 18, Context.zero.tables.p[i] = 0) ∧ (∀ (j : Fin 4) (i : Fin 256), Context.zero.tables.s[j][i] = 0) ∧
  Context.zero.mode.tag = 0 ∧ Context.zero.iv = ⟨0, 0⟩ ∧ Context.zero.ctr = ⟨0, 0⟩ ∧
  (∀ i : Fin 8, Context.zero.ks[i] = 0) ∧ Context.zero.off = 0 ∧ Context.zero.weak = false ∧
  Context.zero.life.bits = 0 ∧ ResultCode.success.bits = 0

/-- R231: a reset during a command returns no response and leaves the engine in the reset state; each byte of the output
region holds its value before the command or the value the command would have written, and every other byte of host
memory is unchanged (all of it, when the descriptor is illegal). It holds whatever the free values are (log entry 7). -/
def Obligations.ResetDuringCommandLeavesOldOrNewBytes : Prop :=
  (∀ (s : State) (d : Descriptor) (rest : List HostAction) (i : Instr) (t : State),
    s.host = .resetDuring d :: rest → decode d = .ok i → exec i { s with host := rest } = .next t →
    ∃ u, step s = .next u ∧ u.ctx = Context.zero ∧ u.resp = ⟨.success, 0, 0⟩ ∧ u.responses = s.responses ∧
      u.host = rest ∧ u.platform = s.platform ∧
      ∀ a,
        if (outputRegion i).1 ≤ a ∧ a < (outputRegion i).1 + (outputRegion i).2 then
          Memory.read u.mem a = Memory.read s.mem a ∨ Memory.read u.mem a = Memory.read t.mem a
        else Memory.read u.mem a = Memory.read s.mem a) ∧
  ∀ (s : State) (d : Descriptor) (rest : List HostAction) (e : IllegalDescriptor),
    s.host = .resetDuring d :: rest → decode d = .error e →
    step s = .next { s with host := rest, ctx := Context.zero, resp := ⟨.success, 0, 0⟩ }

/-- Between commands the host may write its memory: the byte is stored, and nothing of the engine changes (derived from
70_reset_and_hazards.md R235 and 20_memory.md R71). -/
def Obligations.HostWriteStoresOneByte : Prop :=
  ∀ (s : State) (a : Word) (v : Byte) (rest : List HostAction), s.host = .write a v :: rest →
    (∀ h ∈ s.platform, ¬ (h.base ≤ a.toNat ∧ a.toNat < h.base + h.size)) →
    ∃ m, step s = .next { s with host := rest, mem := m } ∧
      ∀ b, Memory.read m b = if b = a.toNat then v else Memory.read s.mem b

/-! ## Host memory and byte order -/

/-- "a read returns the byte last written" (20_memory.md R71), for one byte and for a list of bytes, and a write leaves
every other byte alone (derived from 00_scope.md R13, 20_memory.md R71). -/
def Obligations.ReadAfterWrite : Prop :=
  (∀ (m : Memory) (a b : Nat) (v : Byte), Memory.read (Memory.write m a v) b = if b = a then v else Memory.read m b) ∧
  (∀ (m : Memory) (a : Nat) (vs : List Byte), memRead (memWrite m a vs) a vs.length = vs) ∧
  (∀ (m : Memory) (a b : Nat) (vs : List Byte), (b < a ∨ a + vs.length ≤ b) →
    Memory.read (memWrite m a vs) b = Memory.read m b)

/-- R12: `BE32` has its first byte as its most significant, and `UNBE32` is its inverse. -/
def Obligations.PackingIsBigEndian : Prop :=
  (∀ b0 b1 b2 b3 : Byte,
    (be32 b0 b1 b2 b3).toNat = b0.toNat * 2 ^ 24 + b1.toNat * 2 ^ 16 + b2.toNat * 2 ^ 8 + b3.toNat) ∧
  (∀ b0 b1 b2 b3 : Byte, unbe32 (be32 b0 b1 b2 b3) = [b0, b1, b2, b3]) ∧
  (∀ w : Word, unbe32 w = [w.extractLsb' 24 8, w.extractLsb' 16 8, w.extractLsb' 8 8, w.extractLsb' 0 8] ∧
    ∀ b0 b1 b2 b3, unbe32 w = [b0, b1, b2, b3] → be32 b0 b1 b2 b3 = w)

/-- A block in host memory: the byte at the lowest address is the most significant of `L`, the byte at the highest the
least significant of `R`; a block written is read back, and no byte outside its eight changes (derived from
20_memory.md R64). -/
def Obligations.BlocksInMemoryAreBigEndian : Prop :=
  ∀ (m : Memory) (a : Nat) (b : Block),
    memReadBlock (memWriteBlock m a b) a = b ∧
    (∀ i, i < 8 → (Memory.read (memWriteBlock m a b) (a + i)).toNat =
      (b.l.toNat * 2 ^ 32 + b.r.toNat) / 2 ^ (8 * (7 - i)) % 256) ∧
    ∀ c, (c < a ∨ a + 8 ≤ c) → Memory.read (memWriteBlock m a b) c = Memory.read m c

/-- Host memory as data: every write keeps the canonical form, and two canonical memories that read alike are equal. The
form is the model's own (log entry 1; derived from 20_memory.md R60). -/
def Obligations.MemoryFormIsCanonical : Prop :=
  (∀ (m : Memory) (a : Nat) (v : Byte), Memory.wf m → Memory.wf (Memory.write m a v)) ∧
  (∀ m m' : Memory, Memory.wf m → Memory.wf m' → (∀ a, Memory.read m a = Memory.read m' a) → m = m')

/-! ## The block cipher, ENC and DEC -/

/-- R101: `F(x)` in numbers, each index the byte that BF's shifts and masks select, each sum modulo 2^32; and the worked
example. -/
def Obligations.RoundFunctionValue : Prop :=
  (∀ (s : Vector (Vector Word 256) 4) (x : Word) (a b c d : Fin 256),
    a.val = x.toNat / 2 ^ 24 → b.val = x.toNat / 2 ^ 16 % 256 → c.val = x.toNat / 2 ^ 8 % 256 → d.val = x.toNat % 256 →
    (roundF s x).toNat =
      ((((s[0][a].toNat + s[1][b].toNat) % 2 ^ 32) ^^^ s[2][c].toNat) + s[3][d].toNat) % 2 ^ 32) ∧
  roundF piS 0x00000000 = 0x2FCFF51E

/-- R102: `EncBlock` with the swaps written out, whatever the tables; and the worked example with the π tables. -/
def Obligations.EncBlockRecurrence : Prop :=
  (∀ (t : Tables) (x y : Nat → Word),
    (∀ i : Fin 16, x (i + 1) = y i ^^^ roundF t.s (x i ^^^ t.p[i.val]) ∧ y (i + 1) = x i ^^^ t.p[i.val]) →
    encBlock t ⟨x 0, y 0⟩ = ⟨y 16 ^^^ t.p[17], x 16 ^^^ t.p[16]⟩) ∧
  encBlock ⟨piP, piS⟩ ⟨0, 0⟩ = ⟨0x706D9FCC, 0x1792D23A⟩

/-- R103: `DecBlock` with the swaps written out: `P[17]` down to `P[2]` in the rounds, then `P[1]` into `R` and `P[0]` into
`L`; and the worked examples with the π tables. -/
def Obligations.DecBlockRecurrence : Prop :=
  (∀ (t : Tables) (x y : Nat → Word),
    (∀ i : Fin 16, x (i + 1) = y i ^^^ roundF t.s (x i ^^^ t.p[17 - i.val]) ∧ y (i + 1) = x i ^^^ t.p[17 - i.val]) →
    decBlock t ⟨x 0, y 0⟩ = ⟨y 16 ^^^ t.p[0], x 16 ^^^ t.p[1]⟩) ∧
  decBlock ⟨piP, piS⟩ ⟨0x706D9FCC, 0x1792D23A⟩ = ⟨0, 0⟩ ∧
  decBlock ⟨piP, piS⟩ ⟨0, 0⟩ = ⟨0x3E6C275D, 0x20C8AB5A⟩

/-- R104: decipher inverts encipher and encipher inverts decipher, for every `P`, every `S` and every block. -/
def Obligations.DecipherInvertsEncipher : Prop :=
  ∀ (t : Tables) (b : Block), decBlock t (encBlock t b) = b ∧ encBlock t (decBlock t b) = b

/-- R105: ENC on a READY context writes `XL`, `XR` and `RESULT` and nothing else; otherwise only `RESULT`. -/
def Obligations.EncResult : Prop :=
  ∀ (s : State) (l r : Word),
    (s.ctx.life = .ready → exec (.enc l r) s = .next { s with
      resp := ⟨.success, (encBlock s.ctx.tables ⟨l, r⟩).l, (encBlock s.ctx.tables ⟨l, r⟩).r⟩ }) ∧
    (s.ctx.life ≠ .ready → exec (.enc l r) s = .next { s with resp := { s.resp with result := .invalidParameter } })

/-- R106: DEC, as ENC with `DecBlock`. -/
def Obligations.DecResult : Prop :=
  ∀ (s : State) (l r : Word),
    (s.ctx.life = .ready → exec (.dec l r) s = .next { s with
      resp := ⟨.success, (decBlock s.ctx.tables ⟨l, r⟩).l, (decBlock s.ctx.tables ⟨l, r⟩).r⟩ }) ∧
    (s.ctx.life ≠ .ready → exec (.dec l r) s = .next { s with resp := { s.resp with result := .invalidParameter } })

/-- DEC of what ENC returned gives the block back, and the two together change no register but the response registers
(derived from 40_round_and_block.md R104, R105, R106). -/
def Obligations.DecUndoesEnc : Prop :=
  ∀ (s : State) (l r : Word), s.ctx.life = .ready →
    ∃ t, exec (.enc l r) s = .next t ∧ exec (.dec t.resp.xl t.resp.xr) t = .next { s with resp := ⟨.success, l, r⟩ }

/-! ## The key schedule and INIT -/

/-- R122 to R125: the expanded tables are those after the 521 encipherments, each with the tables of the moment. The
constants that the run starts from are the π tables, which the spec supplies from general knowledge (log entry 14,
PRESUMED). -/
def Obligations.KeyScheduleIsTheRun : Prop :=
  ∀ key : List Byte, 1 ≤ key.length → key.length ≤ 56 →
    ∃ w, ScheduleRun key w ∧ keySchedule key = (w 521).tables

/-- The rules of the key schedule determine the expanded tables: every run that meets them ends in the `P` and `S` that the
key schedule gives (derived from 41_key_schedule.md R121 to R125, R128). The run starts from the π tables (log entry 14,
PRESUMED). -/
def Obligations.ScheduleRunIsDetermined : Prop :=
  ∀ (key : List Byte) (w : Nat → Schedule), 1 ≤ key.length → key.length ≤ 56 → ScheduleRun key w →
    keySchedule key = (w 521).tables

/-- R127: a key and its repetitions give the same `P`, `S` and `WEAK`. -/
def Obligations.RepeatedKeyGivesTheSameTables : Prop :=
  ∀ (key : List Byte) (m : Nat), 1 ≤ key.length → 1 ≤ m → m * key.length ≤ 56 →
    keySchedule (List.replicate m key).flatten = keySchedule key ∧
    weakFlag (keySchedule (List.replicate m key).flatten).p = weakFlag (keySchedule key).p

/-- INIT, accepted and with regions that have a meaning: it writes every register of the context and `RESULT`, nothing
else (R183, R186). The key is the `KLEN` bytes at `KEY`; an address the mode does not use gives zero. -/
def Obligations.InitInstallsTheContext : Prop :=
  ∀ (s : State) (m : Mode) (klen key iva cta : Nat),
    Accepted (.init m.tag.toNat klen key iva cta) s → ValidRegions (.init m.tag.toNat klen key iva cta) s →
    ∃ k : List Byte, k.length = klen ∧ (∀ i, i < klen → k[i]? = some (Memory.read s.mem (key + i))) ∧
      exec (.init m.tag.toNat klen key iva cta) s = .next { s with
        ctx :=
          { tables := keySchedule k
            mode := m
            iv := if m = .cbc ∨ m = .cfb ∨ m = .ofb then memReadBlock s.mem iva else ⟨0, 0⟩
            ctr := if m = .ctr then memReadBlock s.mem cta else ⟨0, 0⟩
            ks := Vector.replicate 8 0
            off := 0
            weak := weakFlag (keySchedule k).p
            life := .ready }
        resp := { s.resp with result := if weakFlag (keySchedule k).p then .weakKey else .success } }

/-- R126, R187: an INIT that passes its checks sets `WEAK` exactly when two entries of the new `P` are equal, reports
WeakKey then and Success otherwise, and leaves the context READY in both cases. -/
def Obligations.InitReportsWeakKeys : Prop :=
  ∀ (s : State) (mode klen key iva cta : Nat),
    Accepted (.init mode klen key iva cta) s → ValidRegions (.init mode klen key iva cta) s →
    ∃ t, exec (.init mode klen key iva cta) s = .next t ∧ t.ctx.life = .ready ∧
      (t.ctx.weak = true ↔ HasEqualSubkeys t.ctx.tables.p) ∧
      (HasEqualSubkeys t.ctx.tables.p → t.resp.result = .weakKey) ∧
      (¬ HasEqualSubkeys t.ctx.tables.p → t.resp.result = .success)

/-- R184, R185, R189, with INIT's order of R210: which code a failed INIT reports, in every lifecycle state, and that it
changes only `RESULT` and `LIFE`. -/
def Obligations.InitErrorsInOrder : Prop :=
  ∀ (s : State) (mode klen key iva cta : Nat),
    if key = 0 then
      exec (.init mode klen key iva cta) s = .next { s with
        ctx := { s.ctx with life := .failed }, resp := { s.resp with result := .invalidParameter } }
    else if klen = 0 ∨ 57 ≤ klen then
      exec (.init mode klen key iva cta) s = .next { s with
        ctx := { s.ctx with life := .failed }, resp := { s.resp with result := .invalidKey } }
    else if 5 ≤ mode then
      exec (.init mode klen key iva cta) s = .next { s with
        ctx := { s.ctx with life := .failed }, resp := { s.resp with result := .invalidMode } }
    else if ¬ ((iva ≠ 0 ↔ mode = 1 ∨ mode = 2 ∨ mode = 3) ∧ (cta ≠ 0 ↔ mode = 4)) then
      exec (.init mode klen key iva cta) s = .next { s with
        ctx := { s.ctx with life := .failed }, resp := { s.resp with result := .invalidParameter } }
    else Accepted (.init mode klen key iva cta) s

/-! ## RSTIV, RSTCTR, TDN -/

/-- R190: RSTIV, accepted, loads the IV register from its eight bytes, clears the keystream and touches nothing else. -/
def Obligations.RstivReseedsTheIv : Prop :=
  ∀ (s : State) (iva : Nat), Accepted (.rstiv iva) s → ReadableRegion s iva 8 →
    exec (.rstiv iva) s = .next { s with
      ctx := { s.ctx with
        iv := ⟨memRead32BE s.mem iva, memRead32BE s.mem (iva + 4)⟩, ks := Vector.replicate 8 0, off := 0 }
      resp := { s.resp with result := .success } }

/-- R193: RSTCTR, accepted, loads the counter register from its eight bytes, clears the keystream and touches nothing
else. -/
def Obligations.RstctrReseedsTheCounter : Prop :=
  ∀ (s : State) (cta : Nat), Accepted (.rstctr cta) s → ReadableRegion s cta 8 →
    exec (.rstctr cta) s = .next { s with
      ctx := { s.ctx with
        ctr := ⟨memRead32BE s.mem cta, memRead32BE s.mem (cta + 4)⟩, ks := Vector.replicate 8 0, off := 0 }
      resp := { s.resp with result := .success } }

/-- "RSTIV with the value given to INIT returns the context to its state just after INIT" (derived from
44_context_commands.md R190), here with a buffer command in between that left the IV's bytes in host memory alone. -/
def Obligations.RstivReturnsToTheInitState : Prop :=
  ∀ (s t u : State) (mode klen key iva inp out len : Nat) (dir : Dir),
    exec (.init mode klen key iva 0) s = .next t → t.ctx.life = .ready → mode ≠ 0 →
    exec (bufferInstr dir inp out len) t = .next u → u.resp.result = .success →
    (∀ i, i < 8 → Memory.read u.mem (iva + i) = Memory.read s.mem (iva + i)) →
    ∃ v, exec (.rstiv iva) u = .next v ∧ v.ctx = t.ctx

/-- R196: TDN succeeds in every state, writes zero to every register of the context and VOID to `LIFE`, and touches neither
`XL`, `XR` nor host memory. -/
def Obligations.TeardownZeroises : Prop :=
  ∀ s : State, ∃ t, exec .tdn s = .next t ∧
    (∀ i : Fin 18, t.ctx.tables.p[i] = 0) ∧ (∀ (j : Fin 4) (i : Fin 256), t.ctx.tables.s[j][i] = 0) ∧
    t.ctx.mode.tag = 0 ∧ t.ctx.iv = ⟨0, 0⟩ ∧ t.ctx.ctr = ⟨0, 0⟩ ∧ (∀ i : Fin 8, t.ctx.ks[i] = 0) ∧ t.ctx.off = 0 ∧
    t.ctx.weak = false ∧ t.ctx.life = .void ∧ t.resp = { s.resp with result := .success } ∧ t.mem = s.mem ∧
    t.platform = s.platform ∧ t.host = s.host ∧ t.responses = s.responses ∧ t.freeDraws = s.freeDraws

/-! ## Errors and the lifecycle -/

/-- R182: on a context that is not READY the six commands behind the gate return InvalidParameter and change nothing but
`RESULT`. -/
def Obligations.LifecycleGate : Prop :=
  ∀ (s : State), s.ctx.life ≠ .ready → ∀ i : Instr,
    (match i with
      | .init _ _ _ _ _ => False
      | .tdn => False
      | _ => True) →
    exec i s = .next { s with resp := { s.resp with result := .invalidParameter } }

/-- What a READY context answers to a bad operand of a reseed or a buffer command, in the order of R210: the code, `LIFE`
FAILED, and nothing else (derived from 42_modes_ecb_cbc.md R141, R142, 44_context_commands.md R181, R190, R191, R193). -/
def Obligations.ReadyContextErrorsInOrder : Prop :=
  ∀ s : State, s.ctx.life = .ready →
    (∀ iva, iva = 0 ∨ s.ctx.mode = .ecb ∨ s.ctx.mode = .ctr →
      exec (.rstiv iva) s = .next { s with
        ctx := { s.ctx with life := .failed }, resp := { s.resp with result := .invalidParameter } }) ∧
    (∀ cta, cta = 0 ∨ s.ctx.mode ≠ .ctr →
      exec (.rstctr cta) s = .next { s with
        ctx := { s.ctx with life := .failed }, resp := { s.resp with result := .invalidParameter } }) ∧
    (∀ (dir : Dir) (inp out len : Nat), inp = 0 ∨ out = 0 →
      exec (bufferInstr dir inp out len) s = .next { s with
        ctx := { s.ctx with life := .failed }, resp := { s.resp with result := .invalidParameter } }) ∧
    (∀ (dir : Dir) (inp out len : Nat), inp ≠ 0 → out ≠ 0 → s.ctx.mode = .ecb ∨ s.ctx.mode = .cbc → len % 8 ≠ 0 →
      exec (bufferInstr dir inp out len) s = .next { s with
        ctx := { s.ctx with life := .failed }, resp := { s.resp with result := .badBufferLength } })

/-- R211: "a command that reports an error has had no effect except on `RESULT` and `LIFE`", for all eight commands. -/
def Obligations.ErrorsArePrecise : Prop :=
  ∀ (i : Instr) (s t : State), exec i s = .next t → t.resp.result ≠ .success → t.resp.result ≠ .weakKey →
    t = { s with ctx := { s.ctx with life := t.ctx.life }, resp := { s.resp with result := t.resp.result } }

/-- R32: the table of lifecycle transitions, row by row. -/
def Obligations.LifecycleTransitions : Prop :=
  (∀ (i : Instr) (s t : State), exec i s = .next t →
    match i with
    | .init _ _ _ _ _ =>
      if t.resp.result = .success ∨ t.resp.result = .weakKey then t.ctx.life = .ready else t.ctx.life = .failed
    | .tdn => t.resp.result = .success ∧ t.ctx.life = .void
    | .enc _ _ =>
      if s.ctx.life = .ready then t.resp.result = .success ∧ t.ctx.life = .ready
      else t.resp.result = .invalidParameter ∧ t.ctx.life = s.ctx.life
    | .dec _ _ =>
      if s.ctx.life = .ready then t.resp.result = .success ∧ t.ctx.life = .ready
      else t.resp.result = .invalidParameter ∧ t.ctx.life = s.ctx.life
    | _ =>
      if s.ctx.life = .ready then
        if t.resp.result = .success then t.ctx.life = .ready else t.ctx.life = .failed
      else t.resp.result = .invalidParameter ∧ t.ctx.life = s.ctx.life) ∧
  (∀ (d : Descriptor) (e : IllegalDescriptor) (s t : State), decode d = .error e → runDescriptor d s = .next t →
    t.resp.result = .invalidParameter ∧ t.ctx.life = s.ctx.life) ∧
  (∀ (s t : State) (rest : List HostAction), s.host = .reset :: rest → step s = .next t → t.ctx.life = .void) ∧
  (∀ (s t : State) (d : Descriptor) (rest : List HostAction), s.host = .resetDuring d :: rest → step s = .next t →
    t.ctx.life = .void)

/-- R201, R207: the codes each command may report, their numbers, and that TestFailed and the number 7 never occur. -/
def Obligations.ResultCodesOfEachCommand : Prop :=
  (∀ (i : Instr) (s t : State), exec i s = .next t →
    t.resp.result = .success ∨
    (t.resp.result = .invalidParameter ∧ i ≠ .tdn) ∨
    ((t.resp.result = .invalidKey ∨ t.resp.result = .weakKey ∨ t.resp.result = .invalidMode) ∧
      ∃ mode klen key iva cta, i = .init mode klen key iva cta) ∨
    (t.resp.result = .badBufferLength ∧ (s.ctx.mode = .ecb ∨ s.ctx.mode = .cbc) ∧
      ∃ dir inp out len, i = bufferInstr dir inp out len)) ∧
  [ResultCode.success, .invalidParameter, .invalidKey, .weakKey, .badBufferLength, .invalidMode, .testFailed].map
    (fun c => c.bits.toNat) = [0, 1, 2, 3, 4, 5, 6]

/-! ## ENCB and DECB -/

/-- The frame of ENCB and DECB: an accepted buffer command with valid regions completes with Success; it changes no byte
of host memory outside its output region, no register but `RESULT` and those its mode uses (derived from
10_state.md R41, 20_memory.md R62, 42_modes_ecb_cbc.md R141). -/
def Obligations.BufferCommandsFrame : Prop :=
  ∀ (s : State) (dir : Dir) (inp out len : Nat),
    Accepted (bufferInstr dir inp out len) s → ValidBuffers s inp out len →
    ∃ t, exec (bufferInstr dir inp out len) s = .next t ∧
      t.resp = { s.resp with result := .success } ∧ t.platform = s.platform ∧ t.host = s.host ∧
      t.responses = s.responses ∧ t.freeDraws = s.freeDraws ∧
      t.ctx.tables = s.ctx.tables ∧ t.ctx.mode = s.ctx.mode ∧ t.ctx.weak = s.ctx.weak ∧ t.ctx.life = s.ctx.life ∧
      (s.ctx.mode = .ecb ∨ s.ctx.mode = .ctr → t.ctx.iv = s.ctx.iv) ∧
      (s.ctx.mode ≠ .ctr → t.ctx.ctr = s.ctx.ctr) ∧
      (s.ctx.mode = .ecb ∨ s.ctx.mode = .cbc → t.ctx.ks = s.ctx.ks ∧ t.ctx.off = s.ctx.off) ∧
      (len = 0 → t.ctx = s.ctx ∧ t.mem = s.mem) ∧
      ∀ a, (a < out ∨ out + len ≤ a) → Memory.read t.mem a = Memory.read s.mem a

/-- R145, R146: ECB, block by block, in place or out of place; the context is unchanged. -/
def Obligations.EcbEnciphersEachBlock : Prop :=
  ∀ (s : State) (dir : Dir) (inp out len : Nat), s.ctx.mode = .ecb →
    Accepted (bufferInstr dir inp out len) s → ValidBuffers s inp out len →
    ∃ m, exec (bufferInstr dir inp out len) s =
        .next { s with mem := m, resp := { s.resp with result := .success } } ∧
      (∀ k, k < len / 8 → memReadBlock m (out + 8 * k) =
        match dir with
        | .enc => encBlock s.ctx.tables (memReadBlock s.mem (inp + 8 * k))
        | .dec => decBlock s.ctx.tables (memReadBlock s.mem (inp + 8 * k))) ∧
      ∀ a, (a < out ∨ out + len ≤ a) → Memory.read m a = Memory.read s.mem a

/-- R107: the block that an ECB ENCB of eight bytes writes is the one ENC returns for the block it reads. -/
def Obligations.EcbBlockIsTheEncBlock : Prop :=
  ∀ (s : State) (a b : Nat), s.ctx.mode = .ecb → s.ctx.life = .ready → ValidBuffers s a b 8 →
    ∃ t u, exec (.encb a b 8) s = .next t ∧
      exec (.enc (memRead32BE s.mem a) (memRead32BE s.mem (a + 4))) s = .next u ∧
      memRead t.mem b 8 = unbe32 u.resp.xl ++ unbe32 u.resp.xr

/-- R147: CBC encipher. Ciphertext block `k` is the encipherment of plaintext block `k` XORed with the ciphertext block
before it, the IV register before the first; the IV register ends with the last ciphertext block. -/
def Obligations.CbcEncipherChains : Prop :=
  ∀ (s : State) (inp out len : Nat), s.ctx.mode = .cbc →
    Accepted (.encb inp out len) s → ValidBuffers s inp out len →
    ∃ m iv, exec (.encb inp out len) s = .next { s with
        mem := m, ctx := { s.ctx with iv := iv }, resp := { s.resp with result := .success } } ∧
      (∀ k, k < len / 8 → memReadBlock m (out + 8 * k) = encBlock s.ctx.tables
        (xorBlock (memReadBlock s.mem (inp + 8 * k))
          (if k = 0 then s.ctx.iv else memReadBlock m (out + 8 * (k - 1))))) ∧
      iv = (if len = 0 then s.ctx.iv else memReadBlock m (out + 8 * (len / 8 - 1))) ∧
      ∀ a, (a < out ∨ out + len ≤ a) → Memory.read m a = Memory.read s.mem a

/-- R148: CBC decipher, in place or out of place. The chaining value is the ciphertext block as it was before the command;
the IV register ends with the last of them. -/
def Obligations.CbcDecipherChains : Prop :=
  ∀ (s : State) (inp out len : Nat), s.ctx.mode = .cbc →
    Accepted (.decb inp out len) s → ValidBuffers s inp out len →
    ∃ m iv, exec (.decb inp out len) s = .next { s with
        mem := m, ctx := { s.ctx with iv := iv }, resp := { s.resp with result := .success } } ∧
      (∀ k, k < len / 8 → memReadBlock m (out + 8 * k) =
        xorBlock (decBlock s.ctx.tables (memReadBlock s.mem (inp + 8 * k)))
          (if k = 0 then s.ctx.iv else memReadBlock s.mem (inp + 8 * (k - 1)))) ∧
      iv = (if len = 0 then s.ctx.iv else memReadBlock s.mem (inp + 8 * (len / 8 - 1))) ∧
      ∀ a, (a < out ∨ out + len ≤ a) → Memory.read m a = Memory.read s.mem a

/-- R161, R162: a buffer command of one byte in a stream mode. With `OFF` = 0 a fresh keystream block is made first, from
the IV register (CFB, OFB) or the counter (CTR); the output byte is the input byte XOR `KS[OFF]`; CFB shifts the
ciphertext byte into the IV register; `OFF` advances modulo 8. -/
def Obligations.OneStreamByte : Prop :=
  ∀ (s : State) (dir : Dir) (inp out : Nat), s.ctx.mode = .cfb ∨ s.ctx.mode = .ofb ∨ s.ctx.mode = .ctr →
    Accepted (bufferInstr dir inp out 1) s → ValidBuffers s inp out 1 →
    ∃ t, exec (bufferInstr dir inp out 1) s = .next t ∧
      let source := if s.ctx.mode = .ctr then s.ctx.ctr else s.ctx.iv
      let fresh := encBlock s.ctx.tables source
      let x := Memory.read s.mem inp
      let y := Memory.read t.mem out
      t.ctx.ks.toList = (if s.ctx.off = 0 then blockBytes fresh else s.ctx.ks.toList) ∧
      y = x ^^^ t.ctx.ks[s.ctx.off] ∧
      t.ctx.off.val = (s.ctx.off.val + 1) % 8 ∧
      (s.ctx.mode = .ctr → blockValue t.ctx.ctr = blockValue s.ctx.ctr + (if s.ctx.off = 0 then 1 else 0) ∧
        t.ctx.iv = s.ctx.iv) ∧
      (s.ctx.mode = .ofb → t.ctx.iv = (if s.ctx.off = 0 then fresh else s.ctx.iv) ∧ t.ctx.ctr = s.ctx.ctr) ∧
      (s.ctx.mode = .cfb → t.ctx.ctr = s.ctx.ctr ∧ (blockValue t.ctx.iv).toNat =
        ((blockValue s.ctx.iv).toNat * 256) % 2 ^ 64 + (match dir with | .enc => y.toNat | .dec => x.toNat))

/-- CFB over whole blocks is 64-bit cipher feedback: each block is XORed with the encipherment of the ciphertext block
before it, the IV register before the first, and the IV register ends with the last ciphertext block (derived from
43_modes_stream.md R163 corner case (a), R164). -/
def Obligations.CfbWholeBlocks : Prop :=
  ∀ (s : State) (dir : Dir) (inp out n : Nat), s.ctx.mode = .cfb → s.ctx.off = 0 →
    Accepted (bufferInstr dir inp out (8 * n)) s → ValidBuffers s inp out (8 * n) →
    ∃ t, exec (bufferInstr dir inp out (8 * n)) s = .next t ∧
      let cipher (k : Nat) : Block :=
        match dir with
        | .enc => memReadBlock t.mem (out + 8 * k)
        | .dec => memReadBlock s.mem (inp + 8 * k)
      (∀ k, k < n → memReadBlock t.mem (out + 8 * k) = xorBlock (memReadBlock s.mem (inp + 8 * k))
        (encBlock s.ctx.tables (if k = 0 then s.ctx.iv else cipher (k - 1)))) ∧
      t.ctx.iv = (if n = 0 then s.ctx.iv else cipher (n - 1)) ∧ t.ctx.off = 0

/-- OFB over whole blocks: keystream block `k` is the IV register enciphered `k + 1` times, whatever the data and the
direction (derived from 43_modes_stream.md R166). -/
def Obligations.OfbWholeBlocks : Prop :=
  ∀ (s : State) (dir : Dir) (inp out n : Nat), s.ctx.mode = .ofb → s.ctx.off = 0 →
    Accepted (bufferInstr dir inp out (8 * n)) s → ValidBuffers s inp out (8 * n) →
    ∃ t, exec (bufferInstr dir inp out (8 * n)) s = .next t ∧
      (∀ k, k < n → memReadBlock t.mem (out + 8 * k) =
        xorBlock (memReadBlock s.mem (inp + 8 * k)) (Nat.repeat (encBlock s.ctx.tables) (k + 1) s.ctx.iv)) ∧
      t.ctx.iv = Nat.repeat (encBlock s.ctx.tables) n s.ctx.iv ∧ t.ctx.off = 0

/-- CTR over whole blocks: keystream block `k` is the encipherment of the counter `+64 k`, and the counter ends `n` higher,
modulo 2^64 (derived from 43_modes_stream.md R165, R167). -/
def Obligations.CtrWholeBlocks : Prop :=
  ∀ (s : State) (dir : Dir) (inp out n : Nat), s.ctx.mode = .ctr → s.ctx.off = 0 →
    Accepted (bufferInstr dir inp out (8 * n)) s → ValidBuffers s inp out (8 * n) →
    ∃ t, exec (bufferInstr dir inp out (8 * n)) s = .next t ∧
      (∀ k, k < n → memReadBlock t.mem (out + 8 * k) = xorBlock (memReadBlock s.mem (inp + 8 * k))
        (encBlock s.ctx.tables (blockOfValue (blockValue s.ctx.ctr + BitVec.ofNat 64 k)))) ∧
      blockValue t.ctx.ctr = blockValue s.ctx.ctr + BitVec.ofNat 64 n ∧ t.ctx.off = 0

/-- R165: the counter increment, on the pair of words and on the 64-bit number. -/
def Obligations.CounterIncrement : Prop :=
  ∀ b : Block,
    (incrementBlock b).r = b.r + 1 ∧ (incrementBlock b).l = (if b.r + 1 = 0 then b.l + 1 else b.l) ∧
    (incrementBlock b).l.toNat * 2 ^ 32 + (incrementBlock b).r.toNat =
      (b.l.toNat * 2 ^ 32 + b.r.toNat + 1) % 2 ^ 64

/-- The CFB shift in words: the top byte of `IVL` is lost, `IVR`'s top byte moves into `IVL`, the new byte becomes bits 7:0
of `IVR` (derived from 43_modes_stream.md R163). -/
def Obligations.CfbShiftInWords : Prop :=
  ∀ (iv : Block) (c : Byte),
    shiftIn iv c = ⟨(iv.l <<< 8) ^^^ (iv.r.extractLsb' 24 8).setWidth 32, (iv.r <<< 8) ^^^ c.setWidth 32⟩

/-- One ENCB or DECB, or any sequence of them over consecutive pieces, give the same state. Pieces of length 0 are allowed,
and in a block mode the pieces are whole blocks. An ENC or DEC before a piece does not disturb it (derived: the stream
modes from 43_modes_stream.md R168, ECB and CBC from 42_modes_ecb_cbc.md R145 to R148, ENC and DEC from
40_round_and_block.md R105, R106). -/
def Obligations.ChunkEquivalence : Prop :=
  (∀ (s : State) (dir : Dir) (inp out : Nat) (pieces : List Nat), pieces ≠ [] →
    Accepted (bufferInstr dir inp out pieces.sum) s → ValidBuffers s inp out pieces.sum →
    (s.ctx.mode = .ecb ∨ s.ctx.mode = .cbc → ∀ n ∈ pieces, n % 8 = 0) →
    ∃ t, exec (bufferInstr dir inp out pieces.sum) s = .next t ∧ runPieces dir inp out pieces s = some t) ∧
  (∀ (s t : State) (l r : Word) (dir : Dir) (inp out len : Nat),
    exec (.enc l r) s = .next t ∨ exec (.dec l r) s = .next t →
    Accepted (bufferInstr dir inp out len) s → ValidBuffers s inp out len →
    ∃ u v, exec (bufferInstr dir inp out len) s = .next u ∧ exec (bufferInstr dir inp out len) t = .next v ∧
      v.ctx = u.ctx ∧ v.mem = u.mem)

/-- In every mode, deciphering what was enciphered, from the context the encipherment started from, returns the
plaintext (derived from 43_modes_stream.md R169). -/
def Obligations.RoundTrip : Prop :=
  ∀ (s t r : State) (inp out back len : Nat),
    exec (.encb inp out len) s = .next t → t.resp.result = .success →
    r.ctx = s.ctx → r.mem = t.mem → ValidBuffers r out back len →
    ∃ u, exec (.decb out back len) r = .next u ∧ memRead u.mem back len = memRead s.mem inp len

/-- R72, R73: in place the input is replaced by exactly the bytes that out of place are written elsewhere, and the context
ends the same (derived). -/
def Obligations.InPlaceEqualsOutOfPlace : Prop :=
  ∀ (s : State) (dir : Dir) (inp out len : Nat),
    Accepted (bufferInstr dir inp out len) s → ValidBuffers s inp out len → ValidBuffers s inp inp len →
    ∃ t u, exec (bufferInstr dir inp out len) s = .next t ∧ exec (bufferInstr dir inp inp len) s = .next u ∧
      t.ctx = u.ctx ∧ memRead t.mem out len = memRead u.mem inp len

/-- In OFB and CTR, ENCB and DECB are one command (derived from 43_modes_stream.md R166, R167, R170). -/
def Obligations.OfbAndCtrIgnoreDirection : Prop :=
  ∀ (s : State) (inp out len : Nat), s.ctx.mode = .ofb ∨ s.ctx.mode = .ctr →
    exec (.encb inp out len) s = exec (.decb inp out len) s

/-- In OFB and CTR "the data never enters" the registers: from one context, two commands of one length over any two inputs
end in the same context, and their outputs differ exactly where the inputs do (derived from 43_modes_stream.md R166,
R167). -/
def Obligations.KeystreamIsIndependentOfTheData : Prop :=
  ∀ (s t : State) (dir : Dir) (inp out inp' out' len : Nat), s.ctx = t.ctx → s.ctx.mode = .ofb ∨ s.ctx.mode = .ctr →
    Accepted (bufferInstr dir inp out len) s → ValidBuffers s inp out len →
    Accepted (bufferInstr dir inp' out' len) t → ValidBuffers t inp' out' len →
    ∃ s' t', exec (bufferInstr dir inp out len) s = .next s' ∧ exec (bufferInstr dir inp' out' len) t = .next t' ∧
      s'.ctx = t'.ctx ∧
      ∀ i, i < len → Memory.read s'.mem (out + i) ^^^ Memory.read s.mem (inp + i) =
        Memory.read t'.mem (out' + i) ^^^ Memory.read t.mem (inp' + i)

/-! ## The whole machine -/

/-- A command answers a next state unless it is accepted and a region it would access has no meaning (R63, R72): there is
no other stop (derived from 20_memory.md R62, R63, R72, 44_context_commands.md R180, 70_reset_and_hazards.md R250; that
the checks come first is log entry 4). -/
def Obligations.CommandsStopOnlyOnMeaninglessRegions : Prop :=
  ∀ (i : Instr) (s : State),
    (Accepted i s ∧ ¬ ValidRegions i s → ∃ r, exec i s = .refused r) ∧
    (¬ (Accepted i s ∧ ¬ ValidRegions i s) → ∃ t, exec i s = .next t)

/-- Which stop names which breach, in the order in which the model looks (the names and the order are the model's, log
entries 4 and 5; that a model refuses these is 20_memory.md R63 and R72). -/
def Obligations.RefusalsByName : Prop :=
  (∀ (s : State) (dir : Dir) (inp out len : Nat), Accepted (bufferInstr dir inp out len) s →
    (2 ^ 32 < inp + len → exec (bufferInstr dir inp out len) s = .refused .regionOutsideAddressSpace) ∧
    (inp + len ≤ 2 ^ 32 → ¬ ReadableRegion s inp len →
      exec (bufferInstr dir inp out len) s = .refused .regionNotReadable) ∧
    (ReadableRegion s inp len → 2 ^ 32 < out + len →
      exec (bufferInstr dir inp out len) s = .refused .regionOutsideAddressSpace) ∧
    (ReadableRegion s inp len → out + len ≤ 2 ^ 32 → ¬ WritableRegion s out len →
      exec (bufferInstr dir inp out len) s = .refused .regionNotWritable) ∧
    (ReadableRegion s inp len → WritableRegion s out len → ¬ DefinedPlacement inp out len →
      exec (bufferInstr dir inp out len) s = .refused .partialOverlap)) ∧
  (∀ (s : State) (a : Nat) (i : Instr), i = .rstiv a ∨ i = .rstctr a → Accepted i s →
    (2 ^ 32 < a + 8 → exec i s = .refused .regionOutsideAddressSpace) ∧
    (a + 8 ≤ 2 ^ 32 → ¬ ReadableRegion s a 8 → exec i s = .refused .regionNotReadable)) ∧
  (∀ (s : State) (mode klen key iva cta : Nat), Accepted (.init mode klen key iva cta) s →
    (2 ^ 32 < key + klen → exec (.init mode klen key iva cta) s = .refused .regionOutsideAddressSpace) ∧
    (key + klen ≤ 2 ^ 32 → ¬ ReadableRegion s key klen →
      exec (.init mode klen key iva cta) s = .refused .regionNotReadable) ∧
    ∀ a, (mode = 4 ∧ a = cta) ∨ ((mode = 1 ∨ mode = 2 ∨ mode = 3) ∧ a = iva) → ReadableRegion s key klen →
      (2 ^ 32 < a + 8 → exec (.init mode klen key iva cta) s = .refused .regionOutsideAddressSpace) ∧
      (a + 8 ≤ 2 ^ 32 → ¬ ReadableRegion s a 8 →
        exec (.init mode klen key iva cta) s = .refused .regionNotReadable))

/-- R23: between INITs, teardowns and resets no step writes `P` or `S`. -/
def Obligations.TablesImmutableAfterInit : Prop :=
  ∀ (s t : State) (x : HostAction) (rest : List HostAction), s.host = x :: rest → step s = .next t →
    t.ctx.tables = s.ctx.tables ∨ x = .reset ∨ (∃ d, x = .resetDuring d) ∨
    ∃ d i, x = .present d ∧ decode d = .ok i ∧
      (i = .tdn ∨ ∃ mode klen key iva cta, i = .init mode klen key iva cta)

/-- `XL` and `XR` are written only by an ENC or DEC that ends with Success, on a READY context (derived from 10_state.md R30,
40_round_and_block.md R105, R106). -/
def Obligations.BlockResultWrittenByEncAndDecOnly : Prop :=
  ∀ (i : Instr) (s t : State), exec i s = .next t →
    (t.resp.xl = s.resp.xl ∧ t.resp.xr = s.resp.xr) ∨
    (t.resp.result = .success ∧ s.ctx.life = .ready ∧ ((∃ l r, i = .enc l r) ∨ ∃ l r, i = .dec l r))

/-- No command changes a byte of host memory outside its output region, the platform, the host's pending actions or the
responses already returned; one that reports an error changes no byte at all (derived from 20_memory.md R62,
44_context_commands.md R180, 70_reset_and_hazards.md R235). -/
def Obligations.OnlyTheOutputRegionChanges : Prop :=
  ∀ (i : Instr) (s t : State), exec i s = .next t →
    (∀ a, (a < (outputRegion i).1 ∨ (outputRegion i).1 + (outputRegion i).2 ≤ a) →
      Memory.read t.mem a = Memory.read s.mem a) ∧
    (t.resp.result ≠ .success → t.mem = s.mem) ∧
    t.platform = s.platform ∧ t.host = s.host ∧ t.responses = s.responses ∧ t.freeDraws = s.freeDraws

/-- The invariant holds after reset (derived from 10_state.md R33, R40; memory's form is log entry 1). -/
def Obligations.InvariantHoldsAtReset : Prop := MachineInv State.reset

/-- From every state that meets the invariant, every step keeps it: memory canonical and inside the address space, a VOID
context all zero, a READY context complete as R33 says (`P` and `S` the key schedule of some key of 1 to 56 bytes, `WEAK`
its flag, unused registers zero), a FAILED context keeping what it had, TestFailed never reported (derived from
10_state.md R33, 44_context_commands.md R189, 60_exceptions.md R207, 43_modes_stream.md R166). -/
def Obligations.EveryStepKeepsTheInvariant : Prop :=
  ∀ s t : State, MachineInv s → step s = .next t → MachineInv t

/-- No step lets a host tell apart two states that differ only in the registers of a context that is not READY: the steps
stop alike, or answer states that again differ in nothing else (derived from 10_state.md R40 and entry U13: "no command
sequence can tell a zero reset value of those registers from any other value"). -/
def Obligations.RegistersOfAnUnusableContextAreUnobservable : Prop :=
  ∀ s t : State, SameToHost s t →
    (∀ s', step s = .next s' → ∃ t', step t = .next t' ∧ SameToHost s' t') ∧
    (∀ r, step s = .refused r → step t = .refused r)
end

