-- ==== Sys2Proof/Laws/Bytes.lean ====
section
/-! SUPPORT. Laws of the bit fields and of the big-endian packing of Machine/Bytes.lean. -/

namespace Sys2Proof.Machine

/-- The packing of R12 as a concatenation. -/
theorem be32_eq_append (b0 b1 b2 b3 : Byte) : be32 b0 b1 b2 b3 = (b0 ++ b1 ++ b2 ++ b3 : BitVec 32) := by
  apply BitVec.eq_of_getLsbD_eq
  intro i hi
  simp only [be32, BitVec.getLsbD_xor, BitVec.getLsbD_shiftLeft, BitVec.getLsbD_setWidth, BitVec.getLsbD_append]
  by_cases h0 : i < 8
  · simp [h0, hi, show i < 24 by omega, show i < 16 by omega]
  · by_cases h1 : i < 16
    · have := BitVec.getLsbD_of_ge b3 i (by omega)
      simp [*, show i < 24 by omega, show i - 8 < 8 by omega, show i - 8 < 32 by omega]
    · by_cases h2 : i < 24
      · have := BitVec.getLsbD_of_ge b3 i (by omega)
        have := BitVec.getLsbD_of_ge b2 (i - 8) (by omega)
        simp [*, show ¬ i - 8 < 8 by omega, show i - 16 < 32 by omega, show i - 8 - 8 = i - 16 by omega]
        omega
      · have := BitVec.getLsbD_of_ge b3 i (by omega)
        have := BitVec.getLsbD_of_ge b2 (i - 8) (by omega)
        have := BitVec.getLsbD_of_ge b1 (i - 16) (by omega)
        simp [*, show ¬ i - 8 < 8 by omega, show ¬ i - 8 - 8 < 8 by omega, show i - 24 < 32 by omega,
          show i - 8 - 8 - 8 = i - 24 by omega]

/-- A word is the packing of its bytes. -/
@[simp] theorem be32_wordByte (w : Word) :
    be32 (wordByte w 0) (wordByte w 1) (wordByte w 2) (wordByte w 3) = w := by
  rw [be32_eq_append]
  apply BitVec.eq_of_getLsbD_eq
  intro i hi
  simp only [wordByte, BitVec.getLsbD_append, BitVec.getLsbD_extractLsb']
  by_cases h0 : i < 8
  · simp [h0]
  · by_cases h1 : i < 16
    · simp [h0, show i - 8 < 8 by omega, show 8 + (i - 8) = i by omega]
    · by_cases h2 : i < 24
      · simp [h0, show ¬ i - 8 < 8 by omega, show i - 8 - 8 < 8 by omega, show 16 + (i - 8 - 8) = i by omega]
      · simp [h0, show ¬ i - 8 < 8 by omega, show ¬ i - 8 - 8 < 8 by omega, show i - 8 - 8 - 8 < 8 by omega,
          show 24 + (i - 8 - 8 - 8) = i by omega]

@[simp] theorem wordByte_be32_0 (b0 b1 b2 b3 : Byte) : wordByte (be32 b0 b1 b2 b3) 0 = b0 := by
  rw [be32_eq_append]
  apply BitVec.eq_of_getLsbD_eq
  intro i hi
  simp only [wordByte, BitVec.getLsbD_append, BitVec.getLsbD_extractLsb']
  simp [hi, show ¬ 24 + i < 8 by omega, show ¬ 24 + i - 8 < 8 by omega, show ¬ 24 + i - 8 - 8 < 8 by omega,
    show 24 + i - 8 - 8 - 8 = i by omega]

@[simp] theorem wordByte_be32_1 (b0 b1 b2 b3 : Byte) : wordByte (be32 b0 b1 b2 b3) 1 = b1 := by
  rw [be32_eq_append]
  apply BitVec.eq_of_getLsbD_eq
  intro i hi
  simp only [wordByte, BitVec.getLsbD_append, BitVec.getLsbD_extractLsb']
  simp [hi, show ¬ 16 + i < 8 by omega, show ¬ 16 + i - 8 < 8 by omega,
    show 16 + i - 8 - 8 = i by omega]

@[simp] theorem wordByte_be32_2 (b0 b1 b2 b3 : Byte) : wordByte (be32 b0 b1 b2 b3) 2 = b2 := by
  rw [be32_eq_append]
  apply BitVec.eq_of_getLsbD_eq
  intro i hi
  simp only [wordByte, BitVec.getLsbD_append, BitVec.getLsbD_extractLsb']
  simp [hi, show ¬ 8 + i < 8 by omega, show 8 + i - 8 = i by omega]

@[simp] theorem wordByte_be32_3 (b0 b1 b2 b3 : Byte) : wordByte (be32 b0 b1 b2 b3) 3 = b3 := by
  rw [be32_eq_append]
  apply BitVec.eq_of_getLsbD_eq
  intro i hi
  simp only [wordByte, BitVec.getLsbD_append, BitVec.getLsbD_extractLsb']
  simp [hi]

/-- Bits of `L ‖ R`: the low 32 are those of `R`, the high 32 those of `L`. -/
theorem getLsbD_blockValue (b : Block) (i : Nat) :
    (blockValue b).getLsbD i = if i < 32 then b.r.getLsbD i else b.l.getLsbD (i - 32) := by
  show (b.l ++ b.r : BitVec (32 + 32)).getLsbD i = _
  rw [BitVec.getLsbD_append]

@[simp] theorem blockOfValue_blockValue (b : Block) : blockOfValue (blockValue b) = b := by
  obtain ⟨l, r⟩ := b
  simp only [blockOfValue, Block.mk.injEq]
  constructor <;>
  · apply BitVec.eq_of_getLsbD_eq
    intro i hi
    simp only [BitVec.getLsbD_extractLsb', getLsbD_blockValue]
    simp [hi]

@[simp] theorem xorBlock_cancel (a b : Block) : xorBlock (xorBlock a b) b = a := by
  simp [xorBlock, BitVec.xor_assoc]

@[simp] theorem unbe32_length (w : Word) : (unbe32 w).length = 4 := rfl

@[simp] theorem blockBytes_length (b : Block) : (blockBytes b).length = 8 := rfl

end Sys2Proof.Machine
end

