-- ==== Sys2Proof/Laws/Memory.lean ====
section
/-! SUPPORT. Laws of host memory: read after write, what a write leaves alone, and the canonical form. -/

namespace Sys2Proof.Machine

/-! ## One byte -/

@[simp] theorem read_nil (a : Nat) : Memory.read [] a = Config.unlistedByte := rfl

theorem read_cons (k : Nat) (w : Byte) (m : Memory) (a : Nat) :
    Memory.read ((k, w) :: m) a = if k = a then w else Memory.read m a := rfl

theorem read_of_unlisted (m : Memory) (a : Nat) (h : ∀ c ∈ m, c.1 ≠ a) : Memory.read m a = Config.unlistedByte := by
  induction m with
  | nil => rfl
  | cons c m ih =>
    rw [read_cons, if_neg (h c List.mem_cons_self)]
    exact ih fun d hd => h d (List.mem_cons_of_mem _ hd)

theorem read_filter_ne (m : Memory) {a b : Nat} (h : b ≠ a) :
    Memory.read (m.filter fun c => c.1 != a) b = Memory.read m b := by
  induction m with
  | nil => rfl
  | cons c m ih =>
    obtain ⟨k, w⟩ := c
    by_cases hk : k = a
    · subst hk
      simp [read_cons, ih, Ne.symm h]
    · simp [hk, read_cons, ih]

theorem read_insert_self (m : Memory) (a : Nat) (v : Byte) (h : ∀ c ∈ m, c.1 ≠ a) :
    Memory.read (Memory.insert m a v) a = v := by
  induction m with
  | nil => simp [Memory.insert, read_cons]
  | cons c m ih =>
    obtain ⟨k, w⟩ := c
    have hk : k ≠ a := h (k, w) List.mem_cons_self
    simp only [Memory.insert]
    split
    · simp [read_cons]
    · simp [read_cons, hk, ih fun d hd => h d (List.mem_cons_of_mem _ hd)]

theorem read_insert_ne (m : Memory) {a b : Nat} (v : Byte) (h : b ≠ a) :
    Memory.read (Memory.insert m a v) b = Memory.read m b := by
  induction m with
  | nil => simp [Memory.insert, read_cons, Ne.symm h]
  | cons c m ih =>
    obtain ⟨k, w⟩ := c
    simp only [Memory.insert]
    split
    · simp [read_cons, Ne.symm h]
    · simp [read_cons, ih]

theorem filter_ne_unlisted (m : Memory) (a : Nat) : ∀ c ∈ m.filter fun c => c.1 != a, c.1 ≠ a := by
  intro c hc
  simpa using (List.mem_filter.mp hc).2

@[simp] theorem read_write_self (m : Memory) (a : Nat) (v : Byte) : Memory.read (Memory.write m a v) a = v := by
  simp only [Memory.write]
  split
  · rename_i h
    rw [h]
    exact read_of_unlisted _ _ (filter_ne_unlisted m a)
  · exact read_insert_self _ _ _ (filter_ne_unlisted m a)

theorem read_write_ne (m : Memory) {a b : Nat} (v : Byte) (h : b ≠ a) :
    Memory.read (Memory.write m a v) b = Memory.read m b := by
  simp only [Memory.write]
  split
  · exact read_filter_ne m h
  · rw [read_insert_ne _ _ h, read_filter_ne m h]

theorem read_write (m : Memory) (a b : Nat) (v : Byte) :
    Memory.read (Memory.write m a v) b = if b = a then v else Memory.read m b := by
  split
  · subst b; simp
  · exact read_write_ne m v ‹_›

/-! ## Several bytes -/

theorem read_memWrite (vs : List Byte) (m : Memory) (a b : Nat) :
    Memory.read (memWrite m a vs) b = if a ≤ b then (vs[b - a]?).getD (Memory.read m b) else Memory.read m b := by
  induction vs generalizing m a with
  | nil => simp [memWrite]
  | cons v vs ih =>
    rw [memWrite, ih, read_write]
    by_cases h1 : b = a
    · subst h1
      rw [if_neg (show ¬ b + 1 ≤ b by omega), if_pos rfl, if_pos (Nat.le_refl b), Nat.sub_self]
      rfl
    · by_cases h2 : a + 1 ≤ b
      · rw [if_pos h2, if_pos (show a ≤ b by omega), if_neg h1, show b - a = (b - (a + 1)) + 1 by omega,
          List.getElem?_cons_succ]
      · rw [if_neg h2, if_neg h1, if_neg (show ¬ a ≤ b by omega)]

/-- Bytes outside the written range are left alone. -/
theorem read_memWrite_outside (vs : List Byte) (m : Memory) {a b : Nat} (h : b < a ∨ a + vs.length ≤ b) :
    Memory.read (memWrite m a vs) b = Memory.read m b := by
  rw [read_memWrite]
  split
  · rw [List.getElem?_eq_none (by omega)]; rfl
  · rfl

theorem read_memWriteBlock_outside (m : Memory) {a b : Nat} (x : Block) (h : b < a ∨ a + 8 ≤ b) :
    Memory.read (memWriteBlock m a x) b = Memory.read m b := by
  unfold memWriteBlock memWrite32BE
  rw [read_memWrite_outside _ _ (by rw [unbe32_length]; omega), read_memWrite_outside _ _ (by rw [unbe32_length]; omega)]

/-- Byte `i` of a block written at `a`. -/
theorem read_memWriteBlock_inside (m : Memory) (a : Nat) (x : Block) (i : Nat) (h : i < 8) :
    Memory.read (memWriteBlock m a x) (a + i) = if i < 4 then wordByte x.l i else wordByte x.r (i - 4) := by
  unfold memWriteBlock memWrite32BE
  rw [read_memWrite, read_memWrite]
  by_cases h4 : i < 4
  · rw [if_neg (by omega), if_pos (by omega), if_pos h4, show a + i - a = i by omega]
    obtain rfl | rfl | rfl | rfl : i = 0 ∨ i = 1 ∨ i = 2 ∨ i = 3 := by omega
    all_goals rfl
  · rw [if_pos (by omega), if_neg h4, show a + i - (a + 4) = i - 4 by omega]
    obtain rfl | rfl | rfl | rfl : i = 4 ∨ i = 5 ∨ i = 6 ∨ i = 7 := by omega
    all_goals rfl

@[simp] theorem memReadBlock_memWriteBlock (m : Memory) (a : Nat) (x : Block) :
    memReadBlock (memWriteBlock m a x) a = x := by
  have h := read_memWriteBlock_inside m a x
  have h0 := h 0 (by omega)
  have h1 := h 1 (by omega)
  have h2 := h 2 (by omega)
  have h3 := h 3 (by omega)
  have h4 := h 4 (by omega)
  have h5 := h 5 (by omega)
  have h6 := h 6 (by omega)
  have h7 := h 7 (by omega)
  simp only [memReadBlock, memRead32BE, Nat.add_assoc]
  simp only [Nat.add_zero] at h0
  simp [h0, h1, h2, h3, h4, h5, h6, h7]

/-- A block depends on its eight bytes only. -/
theorem memReadBlock_congr {m m' : Memory} {a b : Nat}
    (h : ∀ i, i < 8 → Memory.read m (a + i) = Memory.read m' (b + i)) : memReadBlock m a = memReadBlock m' b := by
  have h0 := h 0 (by omega)
  simp only [Nat.add_zero] at h0
  simp only [memReadBlock, memRead32BE, Nat.add_assoc, h0, h 1 (by omega), h 2 (by omega), h 3 (by omega),
    show 4 + 1 = 5 from rfl, show 4 + 2 = 6 from rfl, show 4 + 3 = 7 from rfl, h 4 (by omega), h 5 (by omega),
    h 6 (by omega), h 7 (by omega)]

theorem memReadBlock_memWriteBlock_apart (m : Memory) {a b : Nat} (x : Block) (h : b + 8 ≤ a ∨ a + 8 ≤ b) :
    memReadBlock (memWriteBlock m a x) b = memReadBlock m b :=
  memReadBlock_congr fun i hi => read_memWriteBlock_outside m x (by omega)

@[simp] theorem memRead_length (m : Memory) (a n : Nat) : (memRead m a n).length = n := by
  induction n generalizing a with
  | zero => rfl
  | succ n ih => simp [memRead, ih]

theorem memRead_getElem? (m : Memory) (a n i : Nat) (h : i < n) :
    (memRead m a n)[i]? = some (Memory.read m (a + i)) := by
  induction n generalizing a i with
  | zero => omega
  | succ n ih =>
    cases i with
    | zero => simp [memRead]
    | succ i =>
      rw [memRead, List.getElem?_cons_succ, ih (a + 1) i (by omega)]
      congr 2; omega

/-- A region depends on its bytes only. -/
theorem memRead_congr {m m' : Memory} (n : Nat) {a b : Nat}
    (h : ∀ i, i < n → Memory.read m (a + i) = Memory.read m' (b + i)) : memRead m a n = memRead m' b n := by
  induction n generalizing a b with
  | zero => rfl
  | succ n ih =>
    rw [memRead, memRead]
    have h0 := h 0 (by omega)
    simp only [Nat.add_zero] at h0
    rw [h0, ih fun i hi => by have := h (i + 1) (by omega); rwa [Nat.add_comm i 1, ← Nat.add_assoc, ← Nat.add_assoc] at this]

/-! ## The canonical form -/

theorem mem_insert {m : Memory} {a : Nat} {v : Byte} {c : Host.Cell} (h : c ∈ Memory.insert m a v) :
    c = (a, v) ∨ c ∈ m := by
  induction m with
  | nil => simpa [Memory.insert] using h
  | cons d m ih =>
    obtain ⟨k, w⟩ := d
    simp only [Memory.insert] at h
    split at h
    · simpa using h
    · rcases List.mem_cons.mp h with rfl | h
      · exact .inr List.mem_cons_self
      · exact (ih h).imp_right (List.mem_cons_of_mem _)

theorem insert_pairwise {m : Memory} {a : Nat} {v : Byte} (hm : m.Pairwise fun c d => c.1 < d.1)
    (ha : ∀ c ∈ m, c.1 ≠ a) : (Memory.insert m a v).Pairwise fun c d => c.1 < d.1 := by
  induction m with
  | nil => simp [Memory.insert]
  | cons d m ih =>
    obtain ⟨k, w⟩ := d
    rw [List.pairwise_cons] at hm
    have hk : k ≠ a := ha (k, w) List.mem_cons_self
    simp only [Memory.insert]
    split
    · rename_i hlt
      rw [List.pairwise_cons, List.pairwise_cons]
      refine ⟨fun c hc => ?_, hm⟩
      rcases List.mem_cons.mp hc with rfl | hc
      · exact hlt
      · exact Nat.lt_trans hlt (hm.1 c hc)
    · rw [List.pairwise_cons]
      refine ⟨fun c hc => ?_, ih hm.2 fun c hc => ha c (List.mem_cons_of_mem _ hc)⟩
      rcases mem_insert hc with rfl | hc
      · show k < a
        omega
      · exact hm.1 c hc

theorem write_wf {m : Memory} (h : Memory.wf m) (a : Nat) (v : Byte) : Memory.wf (Memory.write m a v) := by
  have hp := h.1.filter fun c => c.1 != a
  have hz : ∀ c ∈ m.filter (fun c => c.1 != a), c.2 ≠ Config.unlistedByte :=
    fun c hc => h.2 c (List.mem_filter.mp hc).1
  simp only [Memory.write]
  split
  · exact ⟨hp, hz⟩
  · refine ⟨insert_pairwise hp (filter_ne_unlisted m a), fun c hc => ?_⟩
    rcases mem_insert hc with rfl | hc
    · assumption
    · exact hz c hc

theorem memWrite_wf {m : Memory} (h : Memory.wf m) (a : Nat) (vs : List Byte) : Memory.wf (memWrite m a vs) := by
  induction vs generalizing m a with
  | nil => exact h
  | cons v vs ih => exact ih (write_wf h a v) (a + 1)

theorem memWriteBlock_wf {m : Memory} (h : Memory.wf m) (a : Nat) (x : Block) : Memory.wf (memWriteBlock m a x) :=
  memWrite_wf (memWrite_wf h a _) _ _

theorem write_inSpace {m : Memory} (h : Memory.inSpace m) {a : Nat} (ha : a < Config.addressSpace) (v : Byte) :
    Memory.inSpace (Memory.write m a v) := by
  have hz : Memory.inSpace (m.filter fun c => c.1 != a) := fun c hc => h c (List.mem_filter.mp hc).1
  simp only [Memory.write]
  split
  · exact hz
  · intro c hc
    rcases mem_insert hc with rfl | hc
    · exact ha
    · exact hz c hc

theorem memWrite_inSpace {m : Memory} (h : Memory.inSpace m) {a : Nat} (vs : List Byte)
    (ha : a + vs.length ≤ Config.addressSpace) : Memory.inSpace (memWrite m a vs) := by
  induction vs generalizing m a with
  | nil => exact h
  | cons v vs ih =>
    rw [List.length_cons] at ha
    exact ih (write_inSpace h (by omega) v) (by omega)

theorem memWriteBlock_inSpace {m : Memory} (h : Memory.inSpace m) {a : Nat} (x : Block)
    (ha : a + 8 ≤ Config.addressSpace) : Memory.inSpace (memWriteBlock m a x) :=
  memWrite_inSpace (memWrite_inSpace h _ (by rw [unbe32_length]; omega)) _ (by rw [unbe32_length]; omega)

theorem reset_mem_wf : Memory.wf State.reset.mem := by decide

end Sys2Proof.Machine
end

