-- ==== Sys2Proof/Laws/State.lean ====
section
/-! SUPPORT. One lemma per field per update of the state, true by definition, and the small lemmas of `endCommand`. -/

namespace Sys2Proof.Machine

@[simp] theorem setResult_ctx (s : State) (c : ResultCode) : (s.setResult c).ctx = s.ctx := rfl
@[simp] theorem setResult_resp (s : State) (c : ResultCode) : (s.setResult c).resp = { s.resp with result := c } := rfl
@[simp] theorem setResult_mem (s : State) (c : ResultCode) : (s.setResult c).mem = s.mem := rfl
@[simp] theorem setResult_platform (s : State) (c : ResultCode) : (s.setResult c).platform = s.platform := rfl
@[simp] theorem setResult_host (s : State) (c : ResultCode) : (s.setResult c).host = s.host := rfl
@[simp] theorem setResult_responses (s : State) (c : ResultCode) : (s.setResult c).responses = s.responses := rfl
@[simp] theorem setResult_freeDraws (s : State) (c : ResultCode) : (s.setResult c).freeDraws = s.freeDraws := rfl

@[simp] theorem setLife_ctx (s : State) (l : Life) : (s.setLife l).ctx = { s.ctx with life := l } := rfl
@[simp] theorem setLife_resp (s : State) (l : Life) : (s.setLife l).resp = s.resp := rfl
@[simp] theorem setLife_mem (s : State) (l : Life) : (s.setLife l).mem = s.mem := rfl
@[simp] theorem setLife_platform (s : State) (l : Life) : (s.setLife l).platform = s.platform := rfl
@[simp] theorem setLife_host (s : State) (l : Life) : (s.setLife l).host = s.host := rfl
@[simp] theorem setLife_responses (s : State) (l : Life) : (s.setLife l).responses = s.responses := rfl
@[simp] theorem setLife_freeDraws (s : State) (l : Life) : (s.setLife l).freeDraws = s.freeDraws := rfl

@[simp] theorem setBlockResult_ctx (s : State) (b : Block) : (s.setBlockResult b).ctx = s.ctx := rfl
@[simp] theorem setBlockResult_resp (s : State) (b : Block) :
    (s.setBlockResult b).resp = { s.resp with xl := b.l, xr := b.r } := rfl
@[simp] theorem setBlockResult_mem (s : State) (b : Block) : (s.setBlockResult b).mem = s.mem := rfl
@[simp] theorem setBlockResult_platform (s : State) (b : Block) : (s.setBlockResult b).platform = s.platform := rfl
@[simp] theorem setBlockResult_host (s : State) (b : Block) : (s.setBlockResult b).host = s.host := rfl
@[simp] theorem setBlockResult_responses (s : State) (b : Block) : (s.setBlockResult b).responses = s.responses := rfl
@[simp] theorem setBlockResult_freeDraws (s : State) (b : Block) : (s.setBlockResult b).freeDraws = s.freeDraws := rfl

@[simp] theorem setCtx_ctx (s : State) (c : Context) : (s.setCtx c).ctx = c := rfl
@[simp] theorem setCtx_resp (s : State) (c : Context) : (s.setCtx c).resp = s.resp := rfl
@[simp] theorem setCtx_mem (s : State) (c : Context) : (s.setCtx c).mem = s.mem := rfl
@[simp] theorem setCtx_platform (s : State) (c : Context) : (s.setCtx c).platform = s.platform := rfl
@[simp] theorem setCtx_host (s : State) (c : Context) : (s.setCtx c).host = s.host := rfl
@[simp] theorem setCtx_responses (s : State) (c : Context) : (s.setCtx c).responses = s.responses := rfl
@[simp] theorem setCtx_freeDraws (s : State) (c : Context) : (s.setCtx c).freeDraws = s.freeDraws := rfl

@[simp] theorem setMem_ctx (s : State) (m : Memory) : (s.setMem m).ctx = s.ctx := rfl
@[simp] theorem setMem_resp (s : State) (m : Memory) : (s.setMem m).resp = s.resp := rfl
@[simp] theorem setMem_mem (s : State) (m : Memory) : (s.setMem m).mem = m := rfl
@[simp] theorem setMem_platform (s : State) (m : Memory) : (s.setMem m).platform = s.platform := rfl
@[simp] theorem setMem_host (s : State) (m : Memory) : (s.setMem m).host = s.host := rfl
@[simp] theorem setMem_responses (s : State) (m : Memory) : (s.setMem m).responses = s.responses := rfl
@[simp] theorem setMem_freeDraws (s : State) (m : Memory) : (s.setMem m).freeDraws = s.freeDraws := rfl

@[simp] theorem setIv_tables (c : Context) (b : Block) : (c.setIv b).tables = c.tables := rfl
@[simp] theorem setIv_mode (c : Context) (b : Block) : (c.setIv b).mode = c.mode := rfl
@[simp] theorem setIv_iv (c : Context) (b : Block) : (c.setIv b).iv = b := rfl
@[simp] theorem setIv_ctr (c : Context) (b : Block) : (c.setIv b).ctr = c.ctr := rfl
@[simp] theorem setIv_ks (c : Context) (b : Block) : (c.setIv b).ks = c.ks := rfl
@[simp] theorem setIv_off (c : Context) (b : Block) : (c.setIv b).off = c.off := rfl
@[simp] theorem setIv_weak (c : Context) (b : Block) : (c.setIv b).weak = c.weak := rfl
@[simp] theorem setIv_life (c : Context) (b : Block) : (c.setIv b).life = c.life := rfl

@[simp] theorem setCtr_tables (c : Context) (b : Block) : (c.setCtr b).tables = c.tables := rfl
@[simp] theorem setCtr_mode (c : Context) (b : Block) : (c.setCtr b).mode = c.mode := rfl
@[simp] theorem setCtr_iv (c : Context) (b : Block) : (c.setCtr b).iv = c.iv := rfl
@[simp] theorem setCtr_ctr (c : Context) (b : Block) : (c.setCtr b).ctr = b := rfl
@[simp] theorem setCtr_ks (c : Context) (b : Block) : (c.setCtr b).ks = c.ks := rfl
@[simp] theorem setCtr_off (c : Context) (b : Block) : (c.setCtr b).off = c.off := rfl
@[simp] theorem setCtr_weak (c : Context) (b : Block) : (c.setCtr b).weak = c.weak := rfl
@[simp] theorem setCtr_life (c : Context) (b : Block) : (c.setCtr b).life = c.life := rfl

@[simp] theorem setKeystream_tables (c : Context) (b : Block) : (c.setKeystream b).tables = c.tables := rfl
@[simp] theorem setKeystream_mode (c : Context) (b : Block) : (c.setKeystream b).mode = c.mode := rfl
@[simp] theorem setKeystream_iv (c : Context) (b : Block) : (c.setKeystream b).iv = c.iv := rfl
@[simp] theorem setKeystream_ctr (c : Context) (b : Block) : (c.setKeystream b).ctr = c.ctr := rfl
@[simp] theorem setKeystream_off (c : Context) (b : Block) : (c.setKeystream b).off = c.off := rfl
@[simp] theorem setKeystream_weak (c : Context) (b : Block) : (c.setKeystream b).weak = c.weak := rfl
@[simp] theorem setKeystream_life (c : Context) (b : Block) : (c.setKeystream b).life = c.life := rfl

@[simp] theorem clearStream_tables (c : Context) : c.clearStream.tables = c.tables := rfl
@[simp] theorem clearStream_mode (c : Context) : c.clearStream.mode = c.mode := rfl
@[simp] theorem clearStream_iv (c : Context) : c.clearStream.iv = c.iv := rfl
@[simp] theorem clearStream_ctr (c : Context) : c.clearStream.ctr = c.ctr := rfl
@[simp] theorem clearStream_ks (c : Context) : c.clearStream.ks = Vector.replicate 8 0#8 := rfl
@[simp] theorem clearStream_off (c : Context) : c.clearStream.off = 0 := rfl
@[simp] theorem clearStream_weak (c : Context) : c.clearStream.weak = c.weak := rfl
@[simp] theorem clearStream_life (c : Context) : c.clearStream.life = c.life := rfl

@[simp] theorem advanceOff_tables (c : Context) : c.advanceOff.tables = c.tables := rfl
@[simp] theorem advanceOff_mode (c : Context) : c.advanceOff.mode = c.mode := rfl
@[simp] theorem advanceOff_iv (c : Context) : c.advanceOff.iv = c.iv := rfl
@[simp] theorem advanceOff_ctr (c : Context) : c.advanceOff.ctr = c.ctr := rfl
@[simp] theorem advanceOff_ks (c : Context) : c.advanceOff.ks = c.ks := rfl
@[simp] theorem advanceOff_off (c : Context) : c.advanceOff.off = c.off + 1 := rfl
@[simp] theorem advanceOff_weak (c : Context) : c.advanceOff.weak = c.weak := rfl
@[simp] theorem advanceOff_life (c : Context) : c.advanceOff.life = c.life := rfl

/-- A command that does not end in error leaves `LIFE` as its own writes left it (R181). -/
@[simp] theorem finish_success (s : State) : finish .success s = s.setResult .success := rfl

/-- An INIT that passed its checks ends with its code and nothing else (R181, R187). -/
@[simp] theorem finishInit_initCode (w : Bool) (s : State) : finishInit (initCode w) s = s.setResult (initCode w) := by
  cases w <;> rfl

/-- What `finish` does: the code, and FAILED for an error on a READY context (R181). -/
theorem finish_eq (c : ResultCode) (s : State) :
    finish c s =
      { s with
        resp := { s.resp with result := c }
        ctx := { s.ctx with life := if c.isError = true ∧ s.ctx.life = .ready then .failed else s.ctx.life } } := by
  obtain ⟨⟨_, _, _, _, _, _, _, life⟩, _, _, _, _, _, _⟩ := s
  cases life <;> cases c <;> rfl

/-- What `finish` of INIT does: the code, and FAILED for an error (R181). -/
theorem finishInit_eq (c : ResultCode) (s : State) :
    finishInit c s =
      { s with
        resp := { s.resp with result := c }
        ctx := { s.ctx with life := if c.isError = true then .failed else s.ctx.life } } := by
  cases c <;> rfl

@[simp] theorem respond_ctx (s : State) : (respond s).ctx = s.ctx := rfl
@[simp] theorem respond_resp (s : State) : (respond s).resp = s.resp := rfl
@[simp] theorem respond_mem (s : State) : (respond s).mem = s.mem := rfl
@[simp] theorem respond_platform (s : State) : (respond s).platform = s.platform := rfl
@[simp] theorem respond_host (s : State) : (respond s).host = s.host := rfl
@[simp] theorem respond_responses (s : State) : (respond s).responses = s.responses ++ [responseOf s.resp] := rfl
@[simp] theorem respond_freeDraws (s : State) : (respond s).freeDraws = s.freeDraws := rfl

@[simp] theorem hardwareReset_ctx (s : State) : (hardwareReset s).ctx = Context.zero := rfl
@[simp] theorem hardwareReset_resp (s : State) : (hardwareReset s).resp = ResponseRegs.zero := rfl
@[simp] theorem hardwareReset_mem (s : State) : (hardwareReset s).mem = s.mem := rfl
@[simp] theorem hardwareReset_platform (s : State) : (hardwareReset s).platform = s.platform := rfl
@[simp] theorem hardwareReset_host (s : State) : (hardwareReset s).host = s.host := rfl
@[simp] theorem hardwareReset_responses (s : State) : (hardwareReset s).responses = s.responses := rfl
@[simp] theorem hardwareReset_freeDraws (s : State) : (hardwareReset s).freeDraws = s.freeDraws := rfl

end Sys2Proof.Machine
end

