-- ==== Sys2Proof/Laws/Loops.lean ====
section
/-! SUPPORT. What the serial-reference loops `blockLoop` and `byteLoop` do, said once: the context and the output are
those of the unit function run over the list of input units (`runUnits`), and nothing else changes. -/

namespace Sys2Proof.Machine

/-- A unit function run over a list of units, the context carried along. -/
def runUnits {α : Type} (unit : Context → α → Context × α) (c : Context) : List α → Context × List α
  | [] => (c, [])
  | x :: xs =>
    let y := unit c x
    let rest := runUnits unit y.1 xs
    (rest.1, y.2 :: rest.2)

@[simp] theorem runUnits_nil {α : Type} (unit : Context → α → Context × α) (c : Context) :
    runUnits unit c [] = (c, []) := rfl

@[simp] theorem runUnits_cons {α : Type} (unit : Context → α → Context × α) (c : Context) (x : α) (xs : List α) :
    runUnits unit c (x :: xs) =
      ((runUnits unit (unit c x).1 xs).1, (unit c x).2 :: (runUnits unit (unit c x).1 xs).2) := rfl

@[simp] theorem runUnits_length {α : Type} (unit : Context → α → Context × α) (c : Context) (xs : List α) :
    (runUnits unit c xs).2.length = xs.length := by
  induction xs generalizing c with
  | nil => rfl
  | cons x xs ih => simp [ih]

theorem runUnits_append {α : Type} (unit : Context → α → Context × α) (c : Context) (xs ys : List α) :
    runUnits unit c (xs ++ ys) =
      ((runUnits unit (runUnits unit c xs).1 ys).1,
       (runUnits unit c xs).2 ++ (runUnits unit (runUnits unit c xs).1 ys).2) := by
  induction xs generalizing c with
  | nil => rfl
  | cons x xs ih => simp [ih]

/-- What every unit keeps, the run keeps. -/
theorem runUnits_keeps {α : Type} {unit : Context → α → Context × α} {Q : Context → Prop}
    (h : ∀ c x, Q c → Q (unit c x).1) (xs : List α) (c : Context) (hc : Q c) : Q (runUnits unit c xs).1 := by
  induction xs generalizing c with
  | nil => exact hc
  | cons x xs ih => exact ih _ (h c x hc)

/-- The `n` blocks of memory from `a` up. -/
def memBlocks (m : Memory) (a : Nat) : Nat → List Block
  | 0 => []
  | n + 1 => memReadBlock m a :: memBlocks m (a + 8) n

@[simp] theorem memBlocks_length (m : Memory) (a n : Nat) : (memBlocks m a n).length = n := by
  induction n generalizing a with
  | zero => rfl
  | succ n ih => simp [memBlocks, ih]

theorem memBlocks_getElem (m : Memory) (a n k : Nat) (h : k < (memBlocks m a n).length) :
    (memBlocks m a n)[k] = memReadBlock m (a + 8 * k) := by
  induction n generalizing a k with
  | zero => simp at h
  | succ n ih =>
    cases k with
    | zero => rfl
    | succ k =>
      rw [memBlocks_length] at h
      simp only [memBlocks, List.getElem_cons_succ]
      rw [ih (a + 8) k (by rw [memBlocks_length]; omega)]
      congr 1; omega

theorem memBlocks_congr {m m' : Memory} (n : Nat) {a b : Nat}
    (h : ∀ i, i < 8 * n → Memory.read m (a + i) = Memory.read m' (b + i)) : memBlocks m a n = memBlocks m' b n := by
  induction n generalizing a b with
  | zero => rfl
  | succ n ih =>
    rw [memBlocks, memBlocks, memReadBlock_congr (b := b) (m' := m') fun i hi => h i (by omega)]
    rw [ih fun i hi => by
      have := h (8 + i) (by omega)
      rwa [← Nat.add_assoc, ← Nat.add_assoc] at this]

/-- Input and output equal, or without a common byte (20_memory.md R72). -/
abbrev Apart (inp out len : Nat) : Prop := out = inp ∨ inp + len ≤ out ∨ out + len ≤ inp

theorem blockLoop_append (unit : Context → Block → Context × Block) (inp out m n : Nat) (s : State) :
    blockLoop unit inp out (m + n) s = blockLoop unit (inp + 8 * m) (out + 8 * m) n (blockLoop unit inp out m s) := by
  induction m generalizing inp out s with
  | zero => simp [blockLoop]
  | succ m ih =>
    rw [show m + 1 + n = (m + n) + 1 by omega, blockLoop, blockLoop, ih]
    congr 1 <;> omega

theorem byteLoop_append (unit : Context → Byte → Context × Byte) (inp out m n : Nat) (s : State) :
    byteLoop unit inp out (m + n) s = byteLoop unit (inp + m) (out + m) n (byteLoop unit inp out m s) := by
  induction m generalizing inp out s with
  | zero => simp [byteLoop]
  | succ m ih =>
    rw [show m + 1 + n = (m + n) + 1 by omega, byteLoop, byteLoop, ih]
    congr 1 <;> omega

/-- A loop of blocks changes the context and host memory only. -/
theorem blockLoop_frame (unit : Context → Block → Context × Block) (inp out n : Nat) (s : State) :
    blockLoop unit inp out n s =
      (s.setCtx (blockLoop unit inp out n s).ctx).setMem (blockLoop unit inp out n s).mem := by
  induction n generalizing inp out s with
  | zero => rfl
  | succ n ih => rw [blockLoop]; rw [ih]; rfl

theorem byteLoop_frame (unit : Context → Byte → Context × Byte) (inp out n : Nat) (s : State) :
    byteLoop unit inp out n s =
      (s.setCtx (byteLoop unit inp out n s).ctx).setMem (byteLoop unit inp out n s).mem := by
  induction n generalizing inp out s with
  | zero => rfl
  | succ n ih => rw [byteLoop]; rw [ih]; rfl

/-- Only the output region changes. -/
theorem blockLoop_read_outside (unit : Context → Block → Context × Block) (n : Nat) (inp out : Nat) (s : State) (a : Nat)
    (h : a < out ∨ out + 8 * n ≤ a) : Memory.read (blockLoop unit inp out n s).mem a = Memory.read s.mem a := by
  induction n generalizing inp out s with
  | zero => rfl
  | succ n ih =>
    rw [blockLoop, ih _ _ _ (by omega)]
    exact read_memWriteBlock_outside _ _ (by omega)

theorem byteLoop_read_outside (unit : Context → Byte → Context × Byte) (n : Nat) (inp out : Nat) (s : State) (a : Nat)
    (h : a < out ∨ out + n ≤ a) : Memory.read (byteLoop unit inp out n s).mem a = Memory.read s.mem a := by
  induction n generalizing inp out s with
  | zero => rfl
  | succ n ih =>
    rw [byteLoop, ih _ _ _ (by omega)]
    exact read_write_ne _ _ (by omega)

/-- The loop of blocks keeps the canonical form of memory. -/
theorem blockLoop_wf (unit : Context → Block → Context × Block) (n : Nat) (inp out : Nat) (s : State)
    (h : Memory.wf s.mem) : Memory.wf (blockLoop unit inp out n s).mem := by
  induction n generalizing inp out s with
  | zero => exact h
  | succ n ih => exact ih _ _ _ (memWriteBlock_wf h _ _)

theorem byteLoop_wf (unit : Context → Byte → Context × Byte) (n : Nat) (inp out : Nat) (s : State)
    (h : Memory.wf s.mem) : Memory.wf (byteLoop unit inp out n s).mem := by
  induction n generalizing inp out s with
  | zero => exact h
  | succ n ih => exact ih _ _ _ (write_wf h _ _)

theorem blockLoop_inSpace (unit : Context → Block → Context × Block) (n : Nat) (inp out : Nat) (s : State)
    (h : Memory.inSpace s.mem) (ho : out + 8 * n ≤ Config.addressSpace) :
    Memory.inSpace (blockLoop unit inp out n s).mem := by
  induction n generalizing inp out s with
  | zero => exact h
  | succ n ih => exact ih _ _ _ (memWriteBlock_inSpace h _ (by omega)) (by omega)

theorem byteLoop_inSpace (unit : Context → Byte → Context × Byte) (n : Nat) (inp out : Nat) (s : State)
    (h : Memory.inSpace s.mem) (ho : out + n ≤ Config.addressSpace) :
    Memory.inSpace (byteLoop unit inp out n s).mem := by
  induction n generalizing inp out s with
  | zero => exact h
  | succ n ih => exact ih _ _ _ (write_inSpace h (by omega) _) (by omega)

/-- The serial reference of R73 for blocks: with the placements of R72, context and output are those of the unit function
run over the input blocks as they were before the command. -/
theorem blockLoop_spec (unit : Context → Block → Context × Block) (n : Nat) (inp out : Nat) (s : State)
    (h : Apart inp out (8 * n)) :
    (blockLoop unit inp out n s).ctx = (runUnits unit s.ctx (memBlocks s.mem inp n)).1 ∧
    memBlocks (blockLoop unit inp out n s).mem out n = (runUnits unit s.ctx (memBlocks s.mem inp n)).2 := by
  induction n generalizing inp out s with
  | zero => exact ⟨rfl, rfl⟩
  | succ n ih =>
    have hrest : memBlocks (memWriteBlock s.mem out (unit s.ctx (memReadBlock s.mem inp)).2) (inp + 8) n
        = memBlocks s.mem (inp + 8) n :=
      memBlocks_congr n fun i hi => read_memWriteBlock_outside _ _ (by omega)
    have h' := ih (inp + 8) (out + 8)
      ((s.setCtx (unit s.ctx (memReadBlock s.mem inp)).1).setMem
        (memWriteBlock s.mem out (unit s.ctx (memReadBlock s.mem inp)).2)) (by omega)
    simp only [setMem_ctx, setCtx_ctx, setMem_mem, hrest] at h'
    refine ⟨h'.1, ?_⟩
    have hfirst : memReadBlock (blockLoop unit inp out (n + 1) s).mem out = (unit s.ctx (memReadBlock s.mem inp)).2 := by
      rw [blockLoop, memReadBlock_congr (b := out) fun i hi => blockLoop_read_outside _ _ _ _ _ _ (by omega)]
      exact memReadBlock_memWriteBlock _ _ _
    rw [memBlocks, memBlocks, runUnits_cons, hfirst]
    exact congrArg _ h'.2

/-- The serial reference of R73 for bytes. -/
theorem byteLoop_spec (unit : Context → Byte → Context × Byte) (n : Nat) (inp out : Nat) (s : State)
    (h : Apart inp out n) :
    (byteLoop unit inp out n s).ctx = (runUnits unit s.ctx (memRead s.mem inp n)).1 ∧
    memRead (byteLoop unit inp out n s).mem out n = (runUnits unit s.ctx (memRead s.mem inp n)).2 := by
  induction n generalizing inp out s with
  | zero => exact ⟨rfl, rfl⟩
  | succ n ih =>
    have hrest : memRead (Memory.write s.mem out (unit s.ctx (Memory.read s.mem inp)).2) (inp + 1) n
        = memRead s.mem (inp + 1) n :=
      memRead_congr n fun i hi => read_write_ne _ _ (by omega)
    have h' := ih (inp + 1) (out + 1)
      ((s.setCtx (unit s.ctx (Memory.read s.mem inp)).1).setMem
        (Memory.write s.mem out (unit s.ctx (Memory.read s.mem inp)).2)) (by omega)
    simp only [setMem_ctx, setCtx_ctx, setMem_mem, hrest] at h'
    refine ⟨h'.1, ?_⟩
    have hfirst : Memory.read (byteLoop unit inp out (n + 1) s).mem out = (unit s.ctx (Memory.read s.mem inp)).2 := by
      rw [byteLoop, byteLoop_read_outside _ _ _ _ _ _ (by omega)]
      exact read_write_self _ _ _
    rw [memRead, memRead, runUnits_cons, hfirst]
    exact congrArg _ h'.2

end Sys2Proof.Machine
end

