-- ==== Sys2Proof/Laws/Modes.lean ====
section
/-! SUPPORT. What the mode drivers change: the unit functions of Machine/BlockModes.lean and Machine/StreamModes.lean,
and `runMode` over them. -/

namespace Sys2Proof.Machine

/-- Two contexts with the same key, mode, flag and lifecycle: what no buffer command changes. -/
structure SameKey (c d : Context) : Prop where
  tables : d.tables = c.tables
  mode : d.mode = c.mode
  weak : d.weak = c.weak
  life : d.life = c.life

theorem SameKey.refl (c : Context) : SameKey c c := ⟨rfl, rfl, rfl, rfl⟩

theorem SameKey.trans {c d e : Context} (h : SameKey c d) (h' : SameKey d e) : SameKey c e :=
  ⟨h'.tables.trans h.tables, h'.mode.trans h.mode, h'.weak.trans h.weak, h'.life.trans h.life⟩

theorem refill_sameKey (c : Context) : SameKey c (refill c) := by
  unfold refill
  split <;> exact ⟨rfl, rfl, rfl, rfl⟩

@[simp] theorem refill_off (c : Context) : (refill c).off = c.off := by
  unfold refill
  split <;> rfl

theorem useKeystream_sameKey (dir : Dir) (c : Context) (x : Byte) : SameKey c (useKeystream dir c x).1 := by
  unfold useKeystream
  dsimp only
  split <;> exact ⟨rfl, rfl, rfl, rfl⟩

@[simp] theorem useKeystream_off (dir : Dir) (c : Context) (x : Byte) : (useKeystream dir c x).1.off = c.off + 1 := by
  unfold useKeystream
  dsimp only
  split <;> rfl

theorem streamByte_sameKey (dir : Dir) (c : Context) (x : Byte) : SameKey c (streamByte dir c x).1 := by
  unfold streamByte
  split
  · exact (refill_sameKey c).trans (useKeystream_sameKey _ _ _)
  · exact useKeystream_sameKey _ _ _

@[simp] theorem streamByte_off (dir : Dir) (c : Context) (x : Byte) : (streamByte dir c x).1.off = c.off + 1 := by
  unfold streamByte
  split <;> simp

/-- A stream byte leaves the counter alone but in mode CTR, and the IV register alone in mode CTR. -/
theorem streamByte_ctr (dir : Dir) (c : Context) (x : Byte) (h : c.mode ≠ .ctr) :
    (streamByte dir c x).1.ctr = c.ctr := by
  have hr : (refill c).ctr = c.ctr := by
    unfold refill
    split <;> first | rfl | (rename_i hm; exact absurd hm h)
  unfold streamByte useKeystream
  dsimp only
  split <;> split <;> simp [hr]

theorem streamByte_iv_of_ctr (dir : Dir) (c : Context) (x : Byte) (h : c.mode = .ctr) :
    (streamByte dir c x).1.iv = c.iv := by
  have hr : (refill c).iv = c.iv := by simp [refill, h]
  have hm : (refill c).mode = .ctr := (refill_sameKey c).mode.trans h
  unfold streamByte useKeystream
  dsimp only
  split <;> simp [hr, hm, h]

/-- In OFB and CTR the direction makes no difference. -/
theorem streamByte_dir (d d' : Dir) (c : Context) (x : Byte) (h : c.mode ≠ .cfb) :
    streamByte d c x = streamByte d' c x := by
  have hm : (refill c).mode ≠ .cfb := (refill_sameKey c).mode ▸ h
  unfold streamByte useKeystream
  split <;> rfl

theorem ecbEncUnit_sameKey (c : Context) (b : Block) : SameKey c (ecbEncUnit c b).1 := ⟨rfl, rfl, rfl, rfl⟩
theorem ecbDecUnit_sameKey (c : Context) (b : Block) : SameKey c (ecbDecUnit c b).1 := ⟨rfl, rfl, rfl, rfl⟩
theorem cbcEncUnit_sameKey (c : Context) (b : Block) : SameKey c (cbcEncUnit c b).1 := ⟨rfl, rfl, rfl, rfl⟩
theorem cbcDecUnit_sameKey (c : Context) (b : Block) : SameKey c (cbcDecUnit c b).1 := ⟨rfl, rfl, rfl, rfl⟩

/-- The unit function of a block mode, by mode and direction (R141). -/
def blockUnit (m : Mode) (dir : Dir) : Context → Block → Context × Block :=
  match m, dir with
  | .cbc, .enc => cbcEncUnit
  | .cbc, .dec => cbcDecUnit
  | _, .enc => ecbEncUnit
  | _, .dec => ecbDecUnit

theorem blockUnit_sameKey (m : Mode) (dir : Dir) (c : Context) (b : Block) : SameKey c (blockUnit m dir c b).1 := by
  cases m <;> cases dir <;> exact ⟨rfl, rfl, rfl, rfl⟩

theorem byteLoop_congr {f g : Context → Byte → Context × Byte} {Q : Context → Prop} (hQ : ∀ c x, Q c → Q (f c x).1)
    (hfg : ∀ c x, Q c → f c x = g c x) (n : Nat) (inp out : Nat) (s : State) (h : Q s.ctx) :
    byteLoop f inp out n s = byteLoop g inp out n s := by
  induction n generalizing inp out s with
  | zero => rfl
  | succ n ih =>
    rw [byteLoop, byteLoop, ih _ _ _ (by exact hQ _ _ h), hfg _ _ h]

/-- `runMode` in a block mode is one loop of blocks. -/
theorem runMode_block (dir : Dir) (inp out len : Nat) (s : State) (h : s.ctx.mode.isBlockMode = true) :
    runMode dir inp out len s = blockLoop (blockUnit s.ctx.mode dir) inp out (len / 8) s := by
  unfold runMode
  split <;> simp_all [Mode.isBlockMode] <;> rfl

/-- `runMode` in a stream mode is one loop of bytes, in its direction. -/
theorem runMode_stream (dir : Dir) (inp out len : Nat) (s : State) (h : s.ctx.mode.isBlockMode = false) :
    runMode dir inp out len s = byteLoop (streamByte dir) inp out len s := by
  have hdir (h' : s.ctx.mode ≠ .cfb) :
      byteLoop (streamByte .enc) inp out len s = byteLoop (streamByte dir) inp out len s :=
    byteLoop_congr (Q := fun c => c.mode ≠ .cfb) (fun c x hc => by rw [(streamByte_sameKey _ c x).mode]; exact hc)
      (fun c x hc => streamByte_dir _ _ c x hc) len inp out s h'
  unfold runMode
  split <;> simp_all [Mode.isBlockMode, cfbEnc, cfbDec, ofbXor, ctrXor]

/-- A buffer command changes the context and host memory only. -/
theorem runMode_frame (dir : Dir) (inp out len : Nat) (s : State) :
    runMode dir inp out len s =
      (s.setCtx (runMode dir inp out len s).ctx).setMem (runMode dir inp out len s).mem := by
  cases h : s.ctx.mode.isBlockMode
  · rw [runMode_stream _ _ _ _ _ h]; exact byteLoop_frame _ _ _ _ _
  · rw [runMode_block _ _ _ _ _ h]; exact blockLoop_frame _ _ _ _ _

/-- Only the output region changes. -/
theorem runMode_read_outside (dir : Dir) (inp out len : Nat) (s : State) (a : Nat) (h : a < out ∨ out + len ≤ a) :
    Memory.read (runMode dir inp out len s).mem a = Memory.read s.mem a := by
  cases hb : s.ctx.mode.isBlockMode
  · rw [runMode_stream _ _ _ _ _ hb]; exact byteLoop_read_outside _ _ _ _ _ _ h
  · rw [runMode_block _ _ _ _ _ hb]; exact blockLoop_read_outside _ _ _ _ _ _ (by omega)

theorem runMode_wf (dir : Dir) (inp out len : Nat) (s : State) (h : Memory.wf s.mem) :
    Memory.wf (runMode dir inp out len s).mem := by
  cases hb : s.ctx.mode.isBlockMode
  · rw [runMode_stream _ _ _ _ _ hb]; exact byteLoop_wf _ _ _ _ _ h
  · rw [runMode_block _ _ _ _ _ hb]; exact blockLoop_wf _ _ _ _ _ h

theorem runMode_inSpace (dir : Dir) (inp out len : Nat) (s : State) (h : Memory.inSpace s.mem)
    (ho : out + len ≤ Config.addressSpace) : Memory.inSpace (runMode dir inp out len s).mem := by
  cases hb : s.ctx.mode.isBlockMode
  · rw [runMode_stream _ _ _ _ _ hb]; exact byteLoop_inSpace _ _ _ _ _ h ho
  · rw [runMode_block _ _ _ _ _ hb]; exact blockLoop_inSpace _ _ _ _ _ h (by omega)

/-- What every block step of the mode's unit function, or every stream byte, keeps, the whole buffer command keeps. -/
theorem runMode_keeps {Q : Context → Prop} (dir : Dir) (inp out len : Nat) (s : State)
    (hblock : s.ctx.mode.isBlockMode = true → ∀ c b, Q c → Q (blockUnit s.ctx.mode dir c b).1)
    (hstream : s.ctx.mode.isBlockMode = false → ∀ c x, Q c → Q (streamByte dir c x).1) (h : Q s.ctx) :
    Q (runMode dir inp out len s).ctx := by
  cases hb : s.ctx.mode.isBlockMode
  · rw [runMode_stream _ _ _ _ _ hb]
    have hs := hstream hb
    generalize len = n
    clear hb hblock hstream
    induction n generalizing inp out s with
    | zero => exact h
    | succ n ih => exact ih _ _ _ (hs _ _ h)
  · rw [runMode_block _ _ _ _ _ hb]
    have hs := hblock hb
    generalize len / 8 = n
    generalize blockUnit s.ctx.mode dir = unit at hs
    clear hb hblock hstream
    induction n generalizing inp out s with
    | zero => exact h
    | succ n ih => exact ih _ _ _ (hs _ _ h)

/-- A buffer command keeps key, mode, flag and lifecycle. -/
theorem runMode_sameKey (dir : Dir) (inp out len : Nat) (s : State) : SameKey s.ctx (runMode dir inp out len s).ctx :=
  runMode_keeps (Q := SameKey s.ctx) dir inp out len s
    (fun _ c b hc => hc.trans (blockUnit_sameKey _ _ c b)) (fun _ c x hc => hc.trans (streamByte_sameKey _ c x))
    (SameKey.refl _)

end Sys2Proof.Machine
end

