-- ==== Sys2Proof/Laws/Regions.lean ====
section
/-! SUPPORT. The region checks of Machine/Operands.lean decide the region predicates of Safety.lean. -/

namespace Sys2Proof.Machine

theorem disjoint_iff (a m b n : Nat) :
    disjoint a m b n = true ↔ ∀ x, b ≤ x → x < b + n → ¬ (a ≤ x ∧ x < a + m) := by
  simp only [disjoint, Bool.or_eq_true, beq_iff_eq, decide_eq_true_eq]
  constructor
  · intro h x hx hx'; omega
  · intro h
    have h1 := h a
    have h2 := h b
    omega

theorem regionFits_iff (base len : Nat) : regionFits base len = true ↔ 1 ≤ base ∧ base + len ≤ 2 ^ 32 := by
  simp [regionFits, Config.addressSpace, Config.addressWidth]

theorem platformReadable_iff (holes : List Hole) (base len : Nat) :
    platformReadable holes base len = true ↔
      ∀ h ∈ holes, h.kind ≠ .readOnly → ∀ a, base ≤ a → a < base + len → ¬ (h.base ≤ a ∧ a < h.base + h.size) := by
  simp only [platformReadable, List.all_eq_true, Bool.or_eq_true, beq_iff_eq, disjoint_iff]
  exact forall₂_congr fun h _ => ⟨fun hh hk => hh.resolve_left hk, fun hh => (Decidable.em _).imp_right hh⟩

theorem platformWritable_iff (holes : List Hole) (base len : Nat) :
    platformWritable holes base len = true ↔
      ∀ h ∈ holes, ∀ a, base ≤ a → a < base + len → ¬ (h.base ≤ a ∧ a < h.base + h.size) := by
  simp only [platformWritable, List.all_eq_true, disjoint_iff]

theorem readRefusal_eq_none (s : State) (base len : Nat) :
    readRefusal s.platform base len = none ↔ ReadableRegion s base len := by
  unfold readRefusal ReadableRegion
  rw [← platformReadable_iff, ← and_assoc, ← regionFits_iff]
  cases regionFits base len <;> cases platformReadable s.platform base len <;> simp

theorem writeRefusal_eq_none (s : State) (base len : Nat) :
    writeRefusal s.platform base len = none ↔ WritableRegion s base len := by
  unfold writeRefusal WritableRegion
  rw [← platformWritable_iff, ← and_assoc, ← regionFits_iff]
  cases regionFits base len <;> cases platformWritable s.platform base len <;> simp

theorem placementOk_iff (inp out len : Nat) : placementOk inp out len = true ↔ DefinedPlacement inp out len := by
  simp only [placementOk, DefinedPlacement, Bool.or_eq_true, beq_iff_eq, disjoint_iff]
  exact or_congr Iff.rfl ⟨fun h a ha => h a ha.2.1 ha.2.2 ha.1, fun h a h1 h2 h3 => h a ⟨h3, h1, h2⟩⟩

theorem bufferRefusal_eq_none (s : State) (inp out len : Nat) :
    bufferRefusal s.platform inp out len = none ↔ ValidBuffers s inp out len := by
  unfold bufferRefusal ValidBuffers
  rw [Option.or_eq_none_iff, Option.or_eq_none_iff, readRefusal_eq_none, writeRefusal_eq_none, ← placementOk_iff]
  cases placementOk inp out len <;> simp

/-- A defined placement, as inequalities. -/
theorem DefinedPlacement.cases {inp out len : Nat} (h : DefinedPlacement inp out len) :
    out = inp ∨ inp + len ≤ out ∨ out + len ≤ inp := by
  rcases h with h | h
  · exact .inl h
  · have h1 := h inp
    have h2 := h out
    by_cases hl : len = 0
    · omega
    · omega

end Sys2Proof.Machine
end

