-- ==== Sys2Proof/Laws/Commands.lean ====
section
/-! SUPPORT. What each command can do, said once: an accepted command with valid regions has its effect; one that is not
accepted ends in error; and for a next state, one of these is the case. -/

namespace Sys2Proof.Machine

/-! ## The checks -/

theorem bufferError_eq_none (inp out len : Nat) (s : State) :
    bufferError inp out len s = none ↔ Accepted (.encb inp out len) s := by
  unfold bufferError Accepted isNull Config.null
  cases hm : s.ctx.mode <;> cases hl : s.ctx.life <;> by_cases h1 : inp = 0 <;> by_cases h2 : out = 0 <;>
    by_cases h3 : len % 8 = 0 <;> simp [h1, h2, h3, Mode.isBlockMode]

/-- The error codes of ENCB and DECB are errors. -/
theorem bufferError_isError {inp out len : Nat} {s : State} {c : ResultCode} (h : bufferError inp out len s = some c) :
    c.isError = true := by
  unfold bufferError at h
  split at h
  · cases h; rfl
  · split at h
    · cases h; rfl
    · split at h
      · cases h; rfl
      · cases h

theorem modeOfTag_tag {mode : Nat} {m : Mode} (h : modeOfTag mode = some m) : mode = m.tag.toNat := by
  unfold modeOfTag at h
  split at h <;> cases h <;> rfl

/-- INIT's checks pass exactly when INIT is accepted, and then they give the mode of the operand. -/
theorem initChecks_eq_ok (mode klen key iva cta : Nat) (m : Mode) (s : State) :
    initChecks mode klen key iva cta = .ok m ↔ Accepted (.init mode klen key iva cta) s ∧ mode = m.tag.toNat := by
  unfold initChecks Accepted presenceOk isNull keyLengthOk Config.null
  by_cases hk : key = 0
  · simp [hk]
  by_cases hl : 1 ≤ klen ∧ klen ≤ 56
  · obtain ⟨hl1, hl2⟩ := hl
    by_cases hmode : mode ≤ 4
    · obtain rfl | rfl | rfl | rfl | rfl : mode = 0 ∨ mode = 1 ∨ mode = 2 ∨ mode = 3 ∨ mode = 4 := by omega
      all_goals
        by_cases hi : iva = 0 <;> by_cases hc : cta = 0 <;> cases m <;>
          simp [modeOfTag, Mode.usesIv, Mode.usesCtr, Mode.tag, hk, hl1, hl2, hi, hc]
    · have hnone : modeOfTag mode = none := by
        unfold modeOfTag
        split <;> first | omega | rfl
      simp [hnone, hk, hl1, hl2, hmode]
  · have : (decide (1 ≤ klen) && decide (klen ≤ 56)) = false := by
      simp only [Bool.and_eq_false_iff, decide_eq_false_iff_not]
      omega
    simp only [this]
    simp [hk]
    intro h1 h2
    omega

theorem initChecks_isError {mode klen key iva cta : Nat} {c : ResultCode}
    (h : initChecks mode klen key iva cta = .error c) : c.isError = true := by
  unfold initChecks at h
  split at h
  · cases h; rfl
  · split at h
    · cases h; rfl
    · split at h
      · cases h; rfl
      · split at h
        · cases h; rfl
        · split at h
          · cases h; rfl
          · cases h

/-- INIT's regions have a meaning exactly when none of them is refused. -/
theorem initRefusal_eq_none (s : State) (m : Mode) (klen key iva cta : Nat) :
    initRefusal s.platform m klen key iva cta = none ↔ ValidRegions (.init m.tag.toNat klen key iva cta) s := by
  unfold initRefusal ValidRegions
  rw [Option.or_eq_none_iff, Option.or_eq_none_iff, readRefusal_eq_none]
  cases m <;> simp [Mode.usesIv, Mode.usesCtr, Mode.tag, readRefusal_eq_none]

/-! ## What each command does when it is accepted and its regions have a meaning -/

theorem execInit_accepted {klen key iva cta : Nat} {s : State} (m : Mode)
    (h : Accepted (.init m.tag.toNat klen key iva cta) s) (hr : ValidRegions (.init m.tag.toNat klen key iva cta) s) :
    execInit m.tag.toNat klen key iva cta s = .next (initInstall m klen key iva cta s) := by
  unfold execInit
  rw [(initChecks_eq_ok _ _ _ _ _ m s).mpr ⟨h, rfl⟩]
  simp only [(initRefusal_eq_none s m klen key iva cta).mpr hr]

theorem execRstiv_accepted {iva : Nat} {s : State} (h : Accepted (.rstiv iva) s) (hr : ReadableRegion s iva 8) :
    execRstiv iva s = .next ((s.setCtx (s.ctx.setIv (memReadBlock s.mem iva)).clearStream).setResult .success) := by
  obtain ⟨hl, hi, hm⟩ := h
  unfold execRstiv
  rw [(readRefusal_eq_none s iva 8).mpr hr]
  rcases hm with hm | hm | hm <;> simp [hl, hm, hi, isNull, Config.null, Mode.usesIv]

theorem execRstctr_accepted {cta : Nat} {s : State} (h : Accepted (.rstctr cta) s) (hr : ReadableRegion s cta 8) :
    execRstctr cta s = .next ((s.setCtx (s.ctx.setCtr (memReadBlock s.mem cta)).clearStream).setResult .success) := by
  obtain ⟨hl, hi, hm⟩ := h
  unfold execRstctr
  rw [(readRefusal_eq_none s cta 8).mpr hr]
  simp [hl, hm, hi, isNull, Config.null, Mode.usesCtr]

theorem bufferCommand_accepted {dir : Dir} {inp out len : Nat} {s : State} (h : Accepted (.encb inp out len) s)
    (hr : ValidBuffers s inp out len) :
    bufferCommand dir inp out len s = .next ((runMode dir inp out len s).setResult .success) := by
  unfold bufferCommand
  rw [(bufferError_eq_none inp out len s).mpr h]
  simp only [(bufferRefusal_eq_none s inp out len).mpr hr, finish_success]

theorem exec_bufferInstr (dir : Dir) (inp out len : Nat) (s : State) :
    exec (bufferInstr dir inp out len) s = bufferCommand dir inp out len s := by
  cases dir <;> rfl

theorem execEnc_accepted {l r : Word} {s : State} (h : s.ctx.life = .ready) :
    execEnc l r s = .next ((s.setBlockResult (encBlock s.ctx.tables ⟨l, r⟩)).setResult .success) := by
  simp [execEnc, h]

theorem execDec_accepted {l r : Word} {s : State} (h : s.ctx.life = .ready) :
    execDec l r s = .next ((s.setBlockResult (decBlock s.ctx.tables ⟨l, r⟩)).setResult .success) := by
  simp [execDec, h]

/-! ## What a command that answers a next state did -/

/-- INIT: a failed check, or the whole installation. -/
theorem execInit_cases {mode klen key iva cta : Nat} {s t : State} (h : execInit mode klen key iva cta s = .next t) :
    (∃ c, initChecks mode klen key iva cta = .error c ∧ c.isError = true ∧ t = finishInit c s) ∨
    (∃ m, mode = m.tag.toNat ∧ Accepted (.init mode klen key iva cta) s ∧ ValidRegions (.init mode klen key iva cta) s ∧
      t = initInstall m klen key iva cta s) := by
  unfold execInit at h
  split at h
  · rename_i c hc
    cases h
    exact .inl ⟨c, hc, initChecks_isError hc, rfl⟩
  · rename_i m hm
    split at h
    · cases h
    · rename_i hr
      cases h
      obtain ⟨ha, rfl⟩ := (initChecks_eq_ok _ _ _ _ _ m s).mp hm
      exact .inr ⟨m, rfl, ha, (initRefusal_eq_none s m klen key iva cta).mp hr, rfl⟩

/-- RSTIV: a failed check, or the reseed. -/
theorem execRstiv_cases {iva : Nat} {s t : State} (h : execRstiv iva s = .next t) :
    (¬ Accepted (.rstiv iva) s ∧ t = finish .invalidParameter s) ∨
    (Accepted (.rstiv iva) s ∧ ReadableRegion s iva 8 ∧
      t = (s.setCtx (s.ctx.setIv (memReadBlock s.mem iva)).clearStream).setResult .success) := by
  unfold execRstiv at h
  split at h
  · rename_i hc
    cases h
    refine .inl ⟨fun ha => ?_, rfl⟩
    obtain ⟨hl, hi, hm⟩ := ha
    rcases hm with hm | hm | hm <;> simp [hl, hi, hm, isNull, Config.null, Mode.usesIv] at hc
  · rename_i hc
    split at h
    · cases h
    · rename_i hr
      cases h
      refine .inr ⟨?_, (readRefusal_eq_none s iva 8).mp hr, rfl⟩
      cases hm : s.ctx.mode <;> simp_all [Accepted, isNull, Config.null, Mode.usesIv]

/-- RSTCTR: a failed check, or the reseed. -/
theorem execRstctr_cases {cta : Nat} {s t : State} (h : execRstctr cta s = .next t) :
    (¬ Accepted (.rstctr cta) s ∧ t = finish .invalidParameter s) ∨
    (Accepted (.rstctr cta) s ∧ ReadableRegion s cta 8 ∧
      t = (s.setCtx (s.ctx.setCtr (memReadBlock s.mem cta)).clearStream).setResult .success) := by
  unfold execRstctr at h
  split at h
  · rename_i hc
    cases h
    refine .inl ⟨fun ha => ?_, rfl⟩
    obtain ⟨hl, hi, hm⟩ := ha
    simp [hl, hi, hm, isNull, Config.null, Mode.usesCtr] at hc
  · rename_i hc
    split at h
    · cases h
    · rename_i hr
      cases h
      refine .inr ⟨?_, (readRefusal_eq_none s cta 8).mp hr, rfl⟩
      cases hm : s.ctx.mode <;> simp_all [Accepted, isNull, Config.null, Mode.usesCtr]

/-- ENCB and DECB: a failed check, or the run of the mode driver. -/
theorem bufferCommand_cases {dir : Dir} {inp out len : Nat} {s t : State}
    (h : bufferCommand dir inp out len s = .next t) :
    (∃ c, bufferError inp out len s = some c ∧ c.isError = true ∧ t = finish c s) ∨
    (Accepted (.encb inp out len) s ∧ ValidBuffers s inp out len ∧
      t = (runMode dir inp out len s).setResult .success) := by
  unfold bufferCommand at h
  split at h
  · rename_i c hc
    cases h
    exact .inl ⟨c, hc, bufferError_isError hc, rfl⟩
  · rename_i hc
    split at h
    · cases h
    · rename_i hr
      cases h
      exact .inr ⟨(bufferError_eq_none inp out len s).mp hc, (bufferRefusal_eq_none s inp out len).mp hr, rfl⟩

/-- ENC: the gate, or the block. -/
theorem execEnc_cases {l r : Word} {s t : State} (h : execEnc l r s = .next t) :
    (s.ctx.life ≠ .ready ∧ t = finish .invalidParameter s) ∨
    (s.ctx.life = .ready ∧ t = (s.setBlockResult (encBlock s.ctx.tables ⟨l, r⟩)).setResult .success) := by
  unfold execEnc at h
  split at h
  · cases h; exact .inr ⟨‹_›, rfl⟩
  · cases h; exact .inl ⟨‹_›, rfl⟩

/-- DEC: the gate, or the block. -/
theorem execDec_cases {l r : Word} {s t : State} (h : execDec l r s = .next t) :
    (s.ctx.life ≠ .ready ∧ t = finish .invalidParameter s) ∨
    (s.ctx.life = .ready ∧ t = (s.setBlockResult (decBlock s.ctx.tables ⟨l, r⟩)).setResult .success) := by
  unfold execDec at h
  split at h
  · cases h; exact .inr ⟨‹_›, rfl⟩
  · cases h; exact .inl ⟨‹_›, rfl⟩

/-- TDN: always the same. -/
theorem execTdn_eq (s : State) : execTdn s = .next ((s.setCtx Context.zero).setResult .success) := rfl

/-! ## No command touches the host's side of the port or the platform -/

/-- What no command changes: the platform, the host's pending actions, the responses already returned, the free draws. -/
structure SameSurroundings (s t : State) : Prop where
  platform : t.platform = s.platform
  host : t.host = s.host
  responses : t.responses = s.responses
  freeDraws : t.freeDraws = s.freeDraws

theorem finish_surroundings (c : ResultCode) (s : State) : SameSurroundings s (finish c s) := by
  rw [finish_eq]; exact ⟨rfl, rfl, rfl, rfl⟩

theorem finishInit_surroundings (c : ResultCode) (s : State) : SameSurroundings s (finishInit c s) := by
  rw [finishInit_eq]; exact ⟨rfl, rfl, rfl, rfl⟩

theorem initInstall_eq (m : Mode) (klen key iva cta : Nat) (s : State) :
    initInstall m klen key iva cta s =
      (s.setCtx (initContext m (memRead s.mem key klen)
        (if m.usesIv then memReadBlock s.mem iva else ⟨0, 0⟩)
        (if m.usesCtr then memReadBlock s.mem cta else ⟨0, 0⟩))).setResult
      (initCode (weakFlag (keySchedule (memRead s.mem key klen)).p)) := by
  unfold initInstall
  rw [finishInit_initCode]
  rfl

theorem exec_surroundings {i : Instr} {s t : State} (h : exec i s = .next t) : SameSurroundings s t := by
  cases i with
  | init mode klen key iva cta =>
    rcases execInit_cases h with ⟨c, -, -, rfl⟩ | ⟨m, -, -, -, rfl⟩
    · exact finishInit_surroundings c s
    · rw [initInstall_eq]; exact ⟨rfl, rfl, rfl, rfl⟩
  | rstiv iva =>
    rcases execRstiv_cases h with ⟨-, rfl⟩ | ⟨-, -, rfl⟩
    · exact finish_surroundings _ s
    · exact ⟨rfl, rfl, rfl, rfl⟩
  | rstctr cta =>
    rcases execRstctr_cases h with ⟨-, rfl⟩ | ⟨-, -, rfl⟩
    · exact finish_surroundings _ s
    · exact ⟨rfl, rfl, rfl, rfl⟩
  | encb inp out len =>
    rcases bufferCommand_cases h with ⟨c, -, -, rfl⟩ | ⟨-, -, rfl⟩
    · exact finish_surroundings c s
    · rw [runMode_frame]; exact ⟨rfl, rfl, rfl, rfl⟩
  | decb inp out len =>
    rcases bufferCommand_cases h with ⟨c, -, -, rfl⟩ | ⟨-, -, rfl⟩
    · exact finish_surroundings c s
    · rw [runMode_frame]; exact ⟨rfl, rfl, rfl, rfl⟩
  | enc l r =>
    rcases execEnc_cases h with ⟨-, rfl⟩ | ⟨-, rfl⟩
    · exact finish_surroundings _ s
    · exact ⟨rfl, rfl, rfl, rfl⟩
  | dec l r =>
    rcases execDec_cases h with ⟨-, rfl⟩ | ⟨-, rfl⟩
    · exact finish_surroundings _ s
    · exact ⟨rfl, rfl, rfl, rfl⟩
  | tdn =>
    cases h
    exact ⟨rfl, rfl, rfl, rfl⟩

end Sys2Proof.Machine
end

