-- ==== Sys2Proof/Laws/PerInstr.lean ====
section
/-! SUPPORT. The family `TableRow`: the descriptor that the encoder gives a command is one that its row of the opcode
table selects (30_encoding.md R85, R86). -/

namespace Sys2Proof.Laws.TableRow

open Sys2Proof.Machine

/-- The command's descriptor meets the mask and match of its row. -/
def Statement (i : Instr) : Prop := i.wellFormed = true → (opcodeRow i).selectedBy (encode i)

/-- INIT's mask leaves `MODE` and `KLEN` free. -/
theorem encodeW0_masked (mode klen : Nat) : encodeW0 0x01 mode klen &&& 0xFF0000FF = 0x01000000 := by
  apply BitVec.eq_of_getLsbD_eq
  intro i hi
  simp only [encodeW0, BitVec.getLsbD_and, BitVec.getLsbD_append]
  interval_cases i <;> simp

theorem init (mode klen key iva cta : Nat) : Statement (.init mode klen key iva cta) :=
  fun _ => ⟨encodeW0_masked mode klen, by simp [opcodeRow], by simp [opcodeRow], by simp [opcodeRow]⟩

/-- Every other mask fixes the whole of `W0`. -/
theorem encodeW0_whole : ∀ opc : Fin 9, encodeW0 opc.val 0 0 &&& 0xFFFFFFFF = BitVec.ofNat 32 (opc.val * 2 ^ 24) := by
  decide

theorem rstiv (iva : Nat) : Statement (.rstiv iva) :=
  fun _ => ⟨encodeW0_whole 2, by simp [opcodeRow], by simp [opcodeRow, encode], by simp [opcodeRow, encode]⟩

theorem rstctr (cta : Nat) : Statement (.rstctr cta) :=
  fun _ => ⟨encodeW0_whole 3, by simp [opcodeRow], by simp [opcodeRow, encode], by simp [opcodeRow, encode]⟩

theorem encb (inp out len : Nat) : Statement (.encb inp out len) :=
  fun _ => ⟨encodeW0_whole 4, by simp [opcodeRow], by simp [opcodeRow], by simp [opcodeRow]⟩

theorem decb (inp out len : Nat) : Statement (.decb inp out len) :=
  fun _ => ⟨encodeW0_whole 5, by simp [opcodeRow], by simp [opcodeRow], by simp [opcodeRow]⟩

theorem enc (l r : Word) : Statement (.enc l r) :=
  fun _ => ⟨encodeW0_whole 6, by simp [opcodeRow], by simp [opcodeRow], by simp [opcodeRow, encode]⟩

theorem dec (l r : Word) : Statement (.dec l r) :=
  fun _ => ⟨encodeW0_whole 7, by simp [opcodeRow], by simp [opcodeRow], by simp [opcodeRow, encode]⟩

theorem tdn : Statement .tdn :=
  fun _ => ⟨encodeW0_whole 8, by simp [opcodeRow, encode], by simp [opcodeRow, encode], by simp [opcodeRow, encode]⟩

end Sys2Proof.Laws.TableRow
end

