-- ==== Sys2Proof/Laws/Schedule.lean ====
section
/-! SUPPORT. What the steps of the key schedule write, and the sequence of its 522 table states (41_key_schedule.md R121
to R126). -/

namespace Sys2Proof.Machine

/-- Step 3 replaces two entries of `P` and nothing else (R123). -/
theorem setSubkeyPair_p (t : Tables) (i : Nat) (b : Block) (j : Fin 18) :
    (setSubkeyPair t i b).p[j] = if j.val = 2 * i then b.l else if j.val = 2 * i + 1 then b.r else t.p[j] := by
  show ((t.p.setIfInBounds (2 * i) b.l).setIfInBounds (2 * i + 1) b.r)[j.val] = _
  rw [Vector.getElem_setIfInBounds, Vector.getElem_setIfInBounds]
  by_cases h1 : 2 * i + 1 = j.val
  · rw [if_pos h1, if_neg (by omega), if_pos h1.symm]
  · by_cases h2 : 2 * i = j.val
    · rw [if_neg h1, if_pos h2, if_pos h2.symm]
    · rw [if_neg h1, if_neg h2, if_neg fun h => h2 h.symm, if_neg fun h => h1 h.symm]
      rfl

/-- Step 4 replaces two entries of one S-box and nothing else (R124). -/
theorem setSboxPair_s (t : Tables) (k : Fin 4) (i : Nat) (b : Block) (c : Fin 4) (e : Fin 256) :
    (setSboxPair t k i b).s[c][e] =
      if c.val = k.val ∧ e.val = 2 * i then b.l
      else if c.val = k.val ∧ e.val = 2 * i + 1 then b.r
      else t.s[c][e] := by
  simp only [setSboxPair, Fin.getElem_fin, Vector.getElem_set]
  by_cases hc : k.val = c.val
  · obtain rfl : k = c := Fin.ext hc
    simp only [if_true, true_and, Vector.getElem_setIfInBounds]
    by_cases h1 : 2 * i + 1 = e.val
    · rw [if_pos h1, if_neg (by omega), if_pos h1.symm]
    · by_cases h2 : 2 * i = e.val
      · rw [if_neg h1, if_pos h2, if_pos h2.symm]
      · simp [h1, h2, Ne.symm h1, Ne.symm h2]
  · simp [hc, Ne.symm hc]

/-- The tables and the running block after `n` encipherments. -/
def scheduleAt (key : List Byte) : Nat → Schedule
  | 0 => ⟨keyedTables key, ⟨0, 0⟩⟩
  | n + 1 =>
    if n < 9 then subkeyStep (scheduleAt key n) n
    else sboxStep (Fin.ofNat 4 ((n - 9) / 128)) (scheduleAt key n) ((n - 9) % 128)

/-- The sequence meets the rules of the key schedule. -/
theorem scheduleRun_scheduleAt (key : List Byte) : ScheduleRun key (scheduleAt key) where
  startP i := by simp [scheduleAt, keyedTables, keyWord]
  startS := rfl
  startBlock := rfl
  block n _ := by
    rw [scheduleAt]
    split <;> rfl
  subkeys i hi j := by
    rw [scheduleAt, if_pos hi]
    exact setSubkeyPair_p _ _ _ j
  subkeysKeepS i hi := by
    rw [scheduleAt, if_pos hi]
    rfl
  sboxes j i hj hi b e := by
    rw [scheduleAt, if_neg (by omega), show (9 + 128 * j + i - 9) / 128 = j by omega,
      show (9 + 128 * j + i - 9) % 128 = i by omega]
    have h := setSboxPair_s (scheduleAt key (9 + 128 * j + i)).tables (Fin.ofNat 4 j) i
      (encBlock (scheduleAt key (9 + 128 * j + i)).tables (scheduleAt key (9 + 128 * j + i)).block) b e
    rwa [show (Fin.ofNat 4 j).val = j from Nat.mod_eq_of_lt hj] at h
  sboxesKeepP n hn _ := by
    rw [scheduleAt, if_neg (by omega)]
    rfl

/-- `WEAK` says that two entries of `P` are equal (R126). -/
theorem weakFlag_eq_true (p : Vector Word 18) : weakFlag p = true ↔ HasEqualSubkeys p := by
  unfold weakFlag HasEqualSubkeys
  simp only [Bool.not_eq_true', decide_eq_false_iff_not, List.nodup_iff_pairwise_ne, List.pairwise_iff_getElem,
    Vector.length_toList, Vector.getElem_toList, ne_eq, Classical.not_forall, Decidable.not_not,
    Fin.getElem_fin]
  constructor
  · rintro ⟨i, j, hi, hj, hlt, he⟩
    exact ⟨⟨i, hi⟩, ⟨j, hj⟩, hlt, he⟩
  · rintro ⟨i, j, hlt, he⟩
    exact ⟨i, j, i.isLt, j.isLt, hlt, he⟩

end Sys2Proof.Machine
end

