-- ==== Sys2Proof/Tests/Slice0.lean ====
section
/-! SUPPORT. The model's own tests: the smoke test of WellFormed, decoding of words written out from the spec's encodings
(spec/30_encoding.md R94, spec/95_test_vectors.md sections 6 and 7), small steps, and, for every obligation that has
hypotheses, a witness that meets them. Expected values come from spec/95_test_vectors.md, or by hand where a comment says
so. -/

namespace Sys2Proof.Tests

open Sys2Proof.Machine

/-! ## WellFormed: one ill-formed term for each check, refused -/

theorem test_wf_init_mode : (Instr.init 256 8 0x1000 0 0).wellFormed = false := by decide
theorem test_wf_init_klen : (Instr.init 0 256 0x1000 0 0).wellFormed = false := by decide
theorem test_wf_init_key : (Instr.init 0 8 (2 ^ 32) 0 0).wellFormed = false := by decide
theorem test_wf_init_iva : (Instr.init 0 8 0x1000 (2 ^ 32) 0).wellFormed = false := by decide
theorem test_wf_init_cta : (Instr.init 0 8 0x1000 0 (2 ^ 32)).wellFormed = false := by decide
theorem test_wf_rstiv : (Instr.rstiv (2 ^ 32)).wellFormed = false := by decide
theorem test_wf_rstctr : (Instr.rstctr (2 ^ 32)).wellFormed = false := by decide
theorem test_wf_encb_inp : (Instr.encb (2 ^ 32) 1 8).wellFormed = false := by decide
theorem test_wf_encb_out : (Instr.encb 1 (2 ^ 32) 8).wellFormed = false := by decide
theorem test_wf_encb_len : (Instr.encb 1 1 (2 ^ 32)).wellFormed = false := by decide
theorem test_wf_decb_inp : (Instr.decb (2 ^ 32) 1 8).wellFormed = false := by decide
theorem test_wf_decb_out : (Instr.decb 1 (2 ^ 32) 8).wellFormed = false := by decide
theorem test_wf_decb_len : (Instr.decb 1 1 (2 ^ 32)).wellFormed = false := by decide
/-- Range errors of R92 are well formed. -/
theorem test_wf_range_errors : (Instr.init 255 255 0 0 0).wellFormed = true := by decide

/-! ## Decoding: 95_test_vectors.md section 7, the sixteen bytes of each row -/

theorem test_decode_init_cbc :
    decodeBytes [0x01, 0x01, 0x10, 0x00, 0x00, 0x00, 0x10, 0x00, 0x00, 0x00, 0x20, 0x00, 0x00, 0x00, 0x00, 0x00] =
      .ok (.init 1 16 0x1000 0x2000 0) := by rfl
theorem test_decode_init_ctr :
    decodeBytes [0x01, 0x04, 0x38, 0x00, 0xFF, 0xFF, 0x00, 0x00, 0x00, 0x00, 0x00, 0x00, 0x00, 0x00, 0x20, 0x00] =
      .ok (.init 4 56 0xFFFF0000 0 0x2000) := by rfl
theorem test_decode_rstiv :
    decodeBytes [0x02, 0x00, 0x00, 0x00, 0x00, 0x00, 0x20, 0x00, 0x00, 0x00, 0x00, 0x00, 0x00, 0x00, 0x00, 0x00] =
      .ok (.rstiv 0x2000) := by rfl
theorem test_decode_rstctr :
    decodeBytes [0x03, 0x00, 0x00, 0x00, 0x00, 0x00, 0x20, 0x08, 0x00, 0x00, 0x00, 0x00, 0x00, 0x00, 0x00, 0x00] =
      .ok (.rstctr 0x2008) := by rfl
theorem test_decode_encb :
    decodeBytes [0x04, 0x00, 0x00, 0x00, 0x00, 0x00, 0x30, 0x00, 0x00, 0x00, 0x50, 0x00, 0x00, 0x00, 0x00, 0x1D] =
      .ok (.encb 0x3000 0x5000 29) := by rfl
theorem test_decode_decb :
    decodeBytes [0x05, 0x00, 0x00, 0x00, 0x00, 0x00, 0x50, 0x00, 0x00, 0x00, 0x50, 0x00, 0x00, 0x00, 0x00, 0x10] =
      .ok (.decb 0x5000 0x5000 16) := by rfl
theorem test_decode_enc :
    decodeBytes [0x06, 0x00, 0x00, 0x00, 0x01, 0x23, 0x45, 0x67, 0x89, 0xAB, 0xCD, 0xEF, 0x00, 0x00, 0x00, 0x00] =
      .ok (.enc 0x01234567 0x89ABCDEF) := by rfl
theorem test_decode_dec :
    decodeBytes [0x07, 0x00, 0x00, 0x00, 0xFF, 0xFF, 0xFF, 0xFF, 0x00, 0x00, 0x00, 0x00, 0x00, 0x00, 0x00, 0x00] =
      .ok (.dec 0xFFFFFFFF 0) := by rfl
theorem test_decode_tdn :
    decodeBytes [0x08, 0x00, 0x00, 0x00, 0x00, 0x00, 0x00, 0x00, 0x00, 0x00, 0x00, 0x00, 0x00, 0x00, 0x00, 0x00] =
      .ok .tdn := by rfl
/-- The pattern of R80 has `W0` in bits 127:96 and is the sixteen bytes read as one number. -/
theorem test_decode_table_word : decodeTableWord 128 0x06000000_01234567_89ABCDEF_00000000 = some (.enc 0x01234567 0x89ABCDEF) := by
  decide

/-! Illegal descriptors (R90; 30_encoding.md R94): every field that must be zero, and an opcode of no command. -/

theorem test_illegal_opcode : decode ⟨0x00000000, 5, 0, 0⟩ = .error .unknownOpcode := by rfl
theorem test_illegal_opcode_9 : decode ⟨0x09000000, 0, 0, 0⟩ = .error .unknownOpcode := by rfl
theorem test_illegal_rsv : decode ⟨0x01000801, 0x1000, 0, 0⟩ = .error .reservedNotZero := by rfl
theorem test_illegal_mode_field : decode ⟨0x04010000, 0x3000, 0x5000, 8⟩ = .error .mustBeZero := by rfl
theorem test_illegal_klen_field : decode ⟨0x06000100, 0, 0, 0⟩ = .error .mustBeZero := by rfl
theorem test_illegal_rstiv_w2 : decode ⟨0x02000000, 0x2000, 1, 0⟩ = .error .mustBeZero := by rfl
theorem test_illegal_enc_w3 : decode ⟨0x06000000, 0, 0, 1⟩ = .error .mustBeZero := by rfl
theorem test_illegal_tdn_w1 : decode ⟨0x08000000, 1, 0, 0⟩ = .error .mustBeZero := by rfl
theorem test_illegal_length : decodeBytes [0x08] = .error .wrongLength := by rfl

/-! ## The cipher: 95_test_vectors.md section 2 (with the π tables) and section 3 -/

/-- Section 2.1: both sums wrap. -/
theorem test_roundF : roundF piS 0x01020304 = 0x3CEDFF8C := by decide +kernel
/-- Section 2.3. -/
theorem test_encBlock : encBlock ⟨piP, piS⟩ ⟨0x01234567, 0x89ABCDEF⟩ = ⟨0x738E078D, 0x4C8703A6⟩ := by decide +kernel
/-- Section 2.3. -/
theorem test_decBlock : decBlock ⟨piP, piS⟩ ⟨0x01234567, 0x89ABCDEF⟩ = ⟨0xC5D85F4B, 0xA35395DC⟩ := by decide +kernel
/-- Section 3, "Step 2 alone", first and last words: the key is read cyclically. -/
theorem test_keyedTables :
    let p := (keyedTables [0x01, 0x23, 0x45, 0x67, 0x89, 0xAB, 0xCD, 0xEF]).p
    p[0] = 0x251C2FEF ∧ p[1] = 0x0C08C53C ∧ p[16] = 0x933590BE ∧ p[17] = 0x00D236F4 := by decide +kernel
/-- Section 3, key `00` eight times: step 3 leaves the final `P`, here its first three pairs. -/
theorem test_subkeySteps :
    (([0, 1, 2].foldl subkeyStep ⟨keyedTables (List.replicate 8 0), ⟨0, 0⟩⟩).tables.p.toList.take 6) =
      [0x706D9FCC, 0x1792D23A, 0x2DB9D714, 0x966E1439, 0xAC21A76D, 0x8324E988] := by decide +kernel

/-! ## Small steps

`ready m` is a READY context with all-zero tables. Every round then gives `F` = 0 and every subkey is 0, so `EncBlock` and
`DecBlock` only exchange the halves of a block: the expected values below are by hand. -/

/-- A READY context in mode `m` whose tables are zero. -/
def ready (m : Mode) : State := { State.reset with ctx := { Context.zero with mode := m, life := .ready } }

/-- The state after a step, if there is one. -/
def after (o : Host.Outcome State Fault Refusal) : Option State :=
  match o with
  | .next s => some s
  | .fault _ => none
  | .refused _ => none

/-- Host memory with the eight bytes `11 22 33 44 55 66 77 88` at 0x2000. -/
def mem2000 : Memory := memWrite [] 0x2000 [0x11, 0x22, 0x33, 0x44, 0x55, 0x66, 0x77, 0x88]

/-- INIT: section 6, row 11 (two causes: the key length is checked before the mode) and row 17. -/
theorem test_init_errors :
    (after (exec (.init 9 0 0x1000 0 0) State.reset)).map (fun s => (s.resp.result, s.ctx.life)) =
      some (.invalidKey, .failed) ∧
    (after (exec (.init 4 8 0x1000 0x2000 0x2000) State.reset)).map (fun s => (s.resp.result, s.ctx.life)) =
      some (.invalidParameter, .failed) := by decide +kernel

/-- RSTIV: the address's bytes, most significant first, and an emptied keystream. -/
theorem test_rstiv :
    (after (exec (.rstiv 0x2000) { ready .cfb with mem := mem2000, ctx := { (ready .cfb).ctx with off := 5 } })).map
      (fun s => (s.ctx.iv, s.ctx.off, s.resp.result)) = some (⟨0x11223344, 0x55667788⟩, 0, .success) := by decide +kernel

/-- RSTCTR: in mode CFB it is an error (R191). -/
theorem test_rstctr :
    (after (exec (.rstctr 0x2000) { ready .ctr with mem := mem2000 })).map (fun s => s.ctx.ctr) =
      some ⟨0x11223344, 0x55667788⟩ ∧
    (after (exec (.rstctr 0x2000) { ready .cfb with mem := mem2000 })).map (fun s => (s.resp.result, s.ctx.life)) =
      some (.invalidParameter, .failed) := by decide +kernel

/-- ENCB in ECB, in place: the halves are exchanged. -/
theorem test_encb_ecb :
    (after (exec (.encb 0x2000 0x2000 8) { ready .ecb with mem := mem2000 })).map (fun s => memReadBlock s.mem 0x2000) =
      some ⟨0x55667788, 0x11223344⟩ := by decide +kernel

/-- ENCB in CFB: with IV `00000000 000000AB` the keystream is `00 00 00 AB`; byte 0x44 becomes 0xEF, and is shifted in. -/
theorem test_encb_cfb :
    (after (exec (.encb 0x2003 0x3000 1) { ready .cfb with
      mem := mem2000, ctx := { (ready .cfb).ctx with iv := ⟨0, 0xAB⟩, off := 3, ks := #v[0, 0, 0, 0xAB, 0, 0, 0, 0] } })).map
      (fun s => (Memory.read s.mem 0x3000, s.ctx.iv, s.ctx.off)) = some (0xEF, ⟨0, 0xABEF⟩, 4) := by decide +kernel

/-- DECB in CBC: the ciphertext block becomes the chaining value, also in place. -/
theorem test_decb_cbc :
    (after (exec (.decb 0x2000 0x2000 8) { ready .cbc with mem := mem2000, ctx := { (ready .cbc).ctx with iv := ⟨1, 2⟩ } })).map
      (fun s => (memReadBlock s.mem 0x2000, s.ctx.iv)) =
      some (⟨0x55667789, 0x11223346⟩, ⟨0x11223344, 0x55667788⟩) := by decide +kernel

/-- DECB in CTR: the counter wraps to zero; the keystream is the old counter. -/
theorem test_decb_ctr :
    (after (exec (.decb 0x2000 0x2000 1) { ready .ctr with
      mem := mem2000, ctx := { (ready .ctr).ctx with ctr := ⟨0xFFFFFFFF, 0xFFFFFFFF⟩ } })).map
      (fun s => (Memory.read s.mem 0x2000, s.ctx.ctr, s.ctx.off)) = some (0xEE, ⟨0, 0⟩, 1) := by decide +kernel

/-- DECB of a length that is no multiple of 8, in a block mode (section 4). -/
theorem test_decb_length :
    (after (exec (.decb 0x2000 0x3000 12) (ready .ecb))).map (fun s => (s.resp.result, s.ctx.life)) =
      some (.badBufferLength, .failed) := by decide +kernel

/-- ENC. -/
theorem test_enc :
    (after (exec (.enc 0x01234567 0x89ABCDEF) (ready .cbc))).map (fun s => s.resp) =
      some ⟨.success, 0x89ABCDEF, 0x01234567⟩ := by decide +kernel

/-- DEC on a context that is not READY (section 6, rows 24 and 32). -/
theorem test_dec :
    (after (exec (.dec 1 2) { State.reset with resp := ⟨.success, 7, 8⟩ })).map (fun s => (s.resp, s.ctx.life)) =
      some (⟨.invalidParameter, 7, 8⟩, .void) := by decide +kernel

/-- TDN (section 6, rows 27 and 31). -/
theorem test_tdn :
    (after (exec .tdn { ready .cbc with ctx := { (ready .cbc).ctx with iv := ⟨1, 2⟩, life := .failed } })).map
      (fun s => (s.resp.result, s.ctx.life, s.ctx.iv)) = some (.success, .void, ⟨0, 0⟩) := by decide +kernel

/-- The regions that a model refuses (20_memory.md R63, R72): past the top of memory, a device, read-only memory written,
a partial overlap. -/
theorem test_refusals :
    exec (.encb 0xFFFFFFF9 0x3000 8) (ready .ecb) = .refused .regionOutsideAddressSpace ∧
    exec (.encb 0x2000 0x3000 8) { ready .ecb with platform := [⟨0x2007, 1, .device⟩] } = .refused .regionNotReadable ∧
    exec (.encb 0x2000 0x3000 8) { ready .ecb with platform := [⟨0x3007, 1, .readOnly⟩] } = .refused .regionNotWritable ∧
    exec (.encb 0x2000 0x2007 8) (ready .ecb) = .refused .partialOverlap := by
  refine ⟨rfl, rfl, rfl, rfl⟩

/-! ## Steps -/

/-- A table word given to `withFetchWord` is the next command: section 6, row 24 (ENC on a VOID context). -/
theorem test_step_table_word :
    (after (step (State.reset.withFetchWord 128 0x06000000_00000000_00000000_00000000))).map
      (fun s => (s.responses, s.host, s.ctx.life)) = some ([⟨1, 0, 0⟩], [], .void) := by decide +kernel

/-- Section 6, row 61: an illegal descriptor. -/
theorem test_step_illegal :
    (after (step { State.reset with host := [.present ⟨0, 5, 0, 0⟩] })).map (fun s => (s.resp.result, s.ctx.life)) =
      some (.invalidParameter, .void) := by decide +kernel

/-- The host writes a byte, and reset clears the engine but not host memory (R230, R249). -/
theorem test_step_reset_keeps_memory :
    ((after (step { ready .cbc with host := [.write 0x2000 0xAA, .reset] })).bind fun s => after (step s)).map
      (fun s => (Memory.read s.mem 0x2000, s.ctx.life)) = some (0xAA, .void) := by decide +kernel

/-! ## Witnesses: for each obligation with hypotheses, a state and operands that meet them -/

theorem witness_DecodeOfEncode :
    (Instr.init 255 255 0xFFFFFFFF 0xFFFFFFFF 0xFFFFFFFF).wellFormed = true ∧
    (Instr.encb 0xFFFFFFFF 0 0xFFFFFFFF).wellFormed = true := by decide

theorem witness_EncodeOfDecode : decode ⟨0x01FFFF00, 0xFFFFFFFF, 0, 0xFFFFFFFF⟩ = .ok (.init 255 255 0xFFFFFFFF 0 0xFFFFFFFF) := by
  rfl

theorem witness_MaskAndMatchSelectTheCommand : (opcodeRow .tdn).selectedBy ⟨0x08000000, 0, 0, 0⟩ := by
  refine ⟨?_, ?_, ?_, ?_⟩ <;> decide

theorem witness_IllegalDescriptorSetsResultOnly :
    { State.reset with host := [.present ⟨0x09000000, 0, 0, 0⟩] }.host = .present ⟨0x09000000, 0, 0, 0⟩ :: [] ∧
    ∀ i : Instr, ¬ (opcodeRow i).selectedBy ⟨0x09000000, 0, 0, 0⟩ := by
  refine ⟨rfl, fun i => ?_⟩
  cases i <;> simp only [OpcodeRow.selectedBy, opcodeRow] <;> decide

/-- Both clauses: a command that completes, and one that is refused. -/
theorem witness_PresentedDescriptorRunsItsCommand :
    decode ⟨0x08000000, 0, 0, 0⟩ = .ok .tdn ∧
    (∃ t, exec .tdn { ready .ecb with host := [] } = .next t) ∧
    decode ⟨0x04000000, 1, 0xFFFFFFF9, 8⟩ = .ok (.encb 1 0xFFFFFFF9 8) ∧
    ∃ r, exec (.encb 1 0xFFFFFFF9 8) { ready .ecb with host := [] } = .refused r :=
  ⟨rfl, ⟨_, rfl⟩, rfl, ⟨_, rfl⟩⟩

theorem witness_TableWordRunsAsDecoded :
    decodeTableWord 128 (8 * 2 ^ 120) = some .tdn ∧ ∃ t, exec .tdn State.reset = .next t :=
  ⟨by decide, _, rfl⟩

/-- Both clauses with a hypothesis. -/
theorem witness_HardwareResetZeroesTheEngine :
    { ready .cbc with host := [.reset] }.host = .reset :: [] ∧ (ready .cbc).host = [] := ⟨rfl, rfl⟩

/-- No region is forbidden in a state of the default platform. -/
theorem ready_readable (m : Mode) {base len : Nat} (h : 1 ≤ base) (h' : base + len ≤ 2 ^ 32) :
    ReadableRegion (ready m) base len := ⟨h, h', fun _ hh => absurd hh (by simp [ready, State.reset])⟩

theorem ready_writable (m : Mode) {base len : Nat} (h : 1 ≤ base) (h' : base + len ≤ 2 ^ 32) :
    WritableRegion (ready m) base len := ⟨h, h', fun _ hh => absurd hh (by simp [ready, State.reset])⟩

/-- Input at the bottom of memory, output at its top. -/
theorem ready_buffers (m : Mode) {len : Nat} (h : len < 2 ^ 31) : ValidBuffers (ready m) 1 (2 ^ 32 - len) len :=
  ⟨ready_readable m (by omega) (by omega), ready_writable m (by omega) (by omega), .inr fun _ _ => by omega⟩

/-- In place at the top of memory. -/
theorem ready_inPlace (m : Mode) {len : Nat} (h : len ≤ 2 ^ 31) :
    ValidBuffers (ready m) (2 ^ 32 - len) (2 ^ 32 - len) len :=
  ⟨ready_readable m (by omega) (by omega), ready_writable m (by omega) (by omega), .inl rfl⟩

/-- A length that every mode admits is accepted. -/
theorem ready_accepted (m : Mode) (dir : Dir) {inp out len : Nat} (hi : inp ≠ 0) (ho : out ≠ 0) (h : len % 8 = 0) :
    Accepted (bufferInstr dir inp out len) (ready m) := by
  cases dir <;> exact ⟨rfl, hi, ho, fun _ => h⟩

theorem ready_accepted_stream (m : Mode) (dir : Dir) {inp out len : Nat} (hi : inp ≠ 0) (ho : out ≠ 0)
    (hm : m.isBlockMode = false) : Accepted (bufferInstr dir inp out len) (ready m) := by
  cases dir <;> refine ⟨rfl, hi, ho, fun h => ?_⟩ <;> cases m <;> simp [ready, Mode.isBlockMode] at h hm

/-- An accepted buffer command with valid regions answers a next state with Success. -/
theorem ready_completes (m : Mode) (dir : Dir) {inp out len : Nat}
    (ha : Accepted (bufferInstr dir inp out len) (ready m)) (hv : ValidBuffers (ready m) inp out len) :
    ∃ t, exec (bufferInstr dir inp out len) (ready m) = .next t ∧ t.resp.result = .success := by
  refine ⟨_, (exec_bufferInstr dir inp out len (ready m)).trans (bufferCommand_accepted ?_ hv), rfl⟩
  cases dir <;> exact ha

/-- An interrupted ENCB with a non-empty output region (its first byte lies in it, the byte before does not), an interrupted
command without one, and an interrupted illegal descriptor. -/
theorem witness_ResetDuringCommandLeavesOldOrNewBytes :
    decode ⟨0x04000000, 1, 0xFFFFFFF8, 8⟩ = .ok (.encb 1 0xFFFFFFF8 8) ∧
    (∃ t, exec (.encb 1 0xFFFFFFF8 8) { ready .ecb with host := [] } = .next t) ∧
    outputRegion (.encb 1 0xFFFFFFF8 8) = (0xFFFFFFF8, 8) ∧
    decode ⟨0x08000000, 0, 0, 0⟩ = .ok .tdn ∧ (∃ t, exec .tdn { ready .ecb with host := [] } = .next t) ∧
    outputRegion .tdn = (0, 0) ∧
    { ready .ecb with host := [.resetDuring ⟨0, 5, 0, 0⟩] }.host = .resetDuring ⟨0, 5, 0, 0⟩ :: [] ∧
    ∃ e, decode ⟨0, 5, 0, 0⟩ = .error e := by
  refine ⟨rfl, ?_, rfl, rfl, ⟨_, rfl⟩, rfl, rfl, _, rfl⟩
  obtain ⟨t, ht, -⟩ := ready_completes .ecb .enc (ready_accepted .ecb .enc (inp := 1) (out := 0xFFFFFFF8) (len := 8)
    (by decide) (by decide) rfl) (ready_buffers .ecb (len := 8) (by decide))
  exact ⟨t, ht⟩

/-- A write just above a device. -/
theorem witness_HostWriteStoresOneByte :
    let s : State := { State.reset with host := [.write 0x101 7], platform := [⟨0x100, 1, .device⟩] }
    s.host = .write 0x101 7 :: [] ∧ ∀ h ∈ s.platform, ¬ (h.base ≤ (0x101 : Word).toNat ∧ (0x101 : Word).toNat < h.base + h.size) := by
  decide

/-- The third clause: the bytes just below and just above the written ones. -/
theorem witness_ReadAfterWrite :
    (0xFF < 0x100 ∨ 0x100 + [1#8, 2#8].length ≤ 0xFF) ∧ (0x102 < 0x100 ∨ 0x100 + [1#8, 2#8].length ≤ 0x102) := by decide

/-- The third clause of `PackingIsBigEndian`. -/
theorem witness_PackingIsBigEndian : unbe32 0x01020304 = [1, 2, 3, 4] := by decide

theorem witness_BlocksInMemoryAreBigEndian : (0 < 8 ∧ 7 < 8) ∧ (0xFF < 0x100 ∨ 0x100 + 8 ≤ 0xFF) ∧ (0x108 < 0x100 ∨ 0x100 + 8 ≤ 0x108) := by
  decide

/-- Both clauses. -/
theorem witness_MemoryFormIsCanonical :
    Memory.wf [(1, 0x11), (5, 0x22)] ∧ Memory.wf (Memory.write (Memory.write [] 5 0x22) 1 0x11) ∧
    (∀ a, Memory.read [(1, 0x11), (5, 0x22)] a = Memory.read (Memory.write (Memory.write [] 5 0x22) 1 0x11) a) := by
  refine ⟨by decide, by decide, fun a => ?_⟩
  rw [show Memory.write (Memory.write [] 5 0x22) 1 0x11 = [(1, 0x11), (5, 0x22)] by decide]

theorem witness_RoundFunctionValue :
    let x : Word := 0xFF80017F
    ((255 : Fin 256).val = x.toNat / 2 ^ 24 ∧ (128 : Fin 256).val = x.toNat / 2 ^ 16 % 256) ∧
    ((1 : Fin 256).val = x.toNat / 2 ^ 8 % 256 ∧ (127 : Fin 256).val = x.toNat % 256) := by decide

/-- With zero tables the halves stay zero; with the π tables the first round is the one of 95_test_vectors.md 2.2. -/
theorem witness_EncBlockRecurrence :
    (∀ i : Fin 16, (fun _ => 0 : Nat → Word) (i + 1) =
        (fun _ => 0 : Nat → Word) i ^^^ roundF Tables.zero.s ((fun _ => 0 : Nat → Word) i ^^^ Tables.zero.p[i.val]) ∧
      (fun _ => 0 : Nat → Word) (i + 1) = (fun _ => 0 : Nat → Word) i ^^^ Tables.zero.p[i.val]) ∧
    roundF piS (0 ^^^ piP[0]) = 0xDB2F9C4E := by
  decide +kernel

theorem witness_DecBlockRecurrence :
    ∀ i : Fin 16, (fun _ => 0 : Nat → Word) (i + 1) =
        (fun _ => 0 : Nat → Word) i ^^^ roundF Tables.zero.s ((fun _ => 0 : Nat → Word) i ^^^ Tables.zero.p[17 - i.val]) ∧
      (fun _ => 0 : Nat → Word) (i + 1) = (fun _ => 0 : Nat → Word) i ^^^ Tables.zero.p[17 - i.val] := by
  decide +kernel

/-- A READY state, and the two lifecycle states that are not. -/
theorem witness_EncResult :
    (ready .ecb).ctx.life = .ready ∧ State.reset.ctx.life ≠ .ready ∧
    { (ready .ecb).ctx with life := .failed }.life ≠ .ready := by decide +kernel

theorem witness_DecResult :
    (ready .ecb).ctx.life = .ready ∧ State.reset.ctx.life ≠ .ready ∧
    { (ready .ecb).ctx with life := .failed }.life ≠ .ready := by decide +kernel

theorem witness_DecUndoesEnc : (ready .ctr).ctx.life = .ready := rfl

theorem witness_KeyScheduleIsTheRun :
    (1 ≤ [0x41#8].length ∧ [0x41#8].length ≤ 56) ∧ 1 ≤ (List.replicate 56 0x41#8).length ∧ (List.replicate 56 0x41#8).length ≤ 56 := by
  decide

theorem witness_ScheduleRunIsDetermined : ∃ w, (1 ≤ [0x41#8].length ∧ [0x41#8].length ≤ 56) ∧ ScheduleRun [0x41#8] w :=
  ⟨_, by decide, scheduleRun_scheduleAt _⟩

theorem witness_RepeatedKeyGivesTheSameTables :
    1 ≤ [0x41#8].length ∧ 1 ≤ 56 ∧ 56 * [0x41#8].length ≤ 56 := by decide

/-- INIT in every mode, with the shortest key at the bottom of memory and the longest at its top. -/
theorem ready_init (m : Mode) : ∃ iva cta,
    (Accepted (.init m.tag.toNat 1 1 iva cta) (ready m) ∧ ValidRegions (.init m.tag.toNat 1 1 iva cta) (ready m)) ∧
    Accepted (.init m.tag.toNat 56 (2 ^ 32 - 56) iva cta) (ready m) ∧
    ValidRegions (.init m.tag.toNat 56 (2 ^ 32 - 56) iva cta) (ready m) := by
  have h1 : ReadableRegion (ready m) 1 1 := ready_readable m (by decide) (by decide)
  have h2 : ReadableRegion (ready m) (2 ^ 32 - 56) 56 := ready_readable m (by decide) (by decide)
  have h3 : ReadableRegion (ready m) 0x2000 8 := ready_readable m (by decide) (by decide)
  refine ⟨if m.usesIv then 0x2000 else 0, if m.usesCtr then 0x2000 else 0, ?_⟩
  cases m <;> refine ⟨⟨?_, h1, ?_, ?_⟩, ?_, h2, ?_, ?_⟩ <;>
    first
      | exact fun _ => h3
      | simp [Accepted, Mode.tag, Mode.usesIv, Mode.usesCtr]

theorem witness_InitInstallsTheContext (m : Mode) : ∃ klen key iva cta,
    Accepted (.init m.tag.toNat klen key iva cta) (ready m) ∧ ValidRegions (.init m.tag.toNat klen key iva cta) (ready m) :=
  let ⟨iva, cta, h, _⟩ := ready_init m
  ⟨1, 1, iva, cta, h⟩

theorem witness_InitReportsWeakKeys (m : Mode) : ∃ key iva cta,
    Accepted (.init m.tag.toNat 56 key iva cta) (ready m) ∧ ValidRegions (.init m.tag.toNat 56 key iva cta) (ready m) :=
  let ⟨iva, cta, _, h⟩ := ready_init m
  ⟨2 ^ 32 - 56, iva, cta, h⟩

/-- Each branch of the order of R210, at the boundary of its range; the codes are those of 95_test_vectors.md section 6. -/
theorem witness_InitErrorsInOrder :
    (after (exec (.init 5 57 0 1 1) State.reset)).map (fun s => s.resp.result) = some .invalidParameter ∧
    (after (exec (.init 5 57 1 1 1) State.reset)).map (fun s => s.resp.result) = some .invalidKey ∧
    (after (exec (.init 5 56 1 1 1) State.reset)).map (fun s => s.resp.result) = some .invalidMode ∧
    (after (exec (.init 4 56 1 1 1) State.reset)).map (fun s => s.resp.result) = some .invalidParameter ∧
    Accepted (.init 4 56 1 0 1) State.reset := by
  refine ⟨by decide, by decide, by decide, by decide, by simp [Accepted]⟩

/-- The three modes, and the lowest and the highest IV address. -/
theorem witness_RstivReseedsTheIv (m : Mode) (h : m = .cbc ∨ m = .cfb ∨ m = .ofb) :
    (Accepted (.rstiv 1) (ready m) ∧ ReadableRegion (ready m) 1 8) ∧
    Accepted (.rstiv (2 ^ 32 - 8)) (ready m) ∧ ReadableRegion (ready m) (2 ^ 32 - 8) 8 :=
  ⟨⟨⟨rfl, by decide, h⟩, ready_readable m (by decide) (by decide)⟩,
    ⟨rfl, by decide, h⟩, ready_readable m (by decide) (by decide)⟩

theorem witness_RstctrReseedsTheCounter :
    (Accepted (.rstctr 1) (ready .ctr) ∧ ReadableRegion (ready .ctr) 1 8) ∧
    Accepted (.rstctr (2 ^ 32 - 8)) (ready .ctr) ∧ ReadableRegion (ready .ctr) (2 ^ 32 - 8) 8 :=
  ⟨⟨⟨rfl, by decide, rfl⟩, ready_readable .ctr (by decide) (by decide)⟩,
    ⟨rfl, by decide, rfl⟩, ready_readable .ctr (by decide) (by decide)⟩

/-- INIT in CBC, then an ENCB of no bytes, which leaves memory alone. -/
theorem witness_RstivReturnsToTheInitState : ∃ t u,
    exec (.init 1 8 0x1000 0x2000 0) State.reset = .next t ∧ t.ctx.life = .ready ∧
    exec (bufferInstr .enc 1 1 0) t = .next u ∧ u.resp.result = .success ∧
    ∀ i, i < 8 → Memory.read u.mem (0x2000 + i) = Memory.read State.reset.mem (0x2000 + i) := by
  have free {s : State} (hp : s.platform = []) {base len : Nat} (h : 1 ≤ base) (h' : base + len ≤ 2 ^ 32) :
      ReadableRegion s base len ∧ WritableRegion s base len :=
    ⟨⟨h, h', fun _ hh => absurd hh (by simp [hp])⟩, h, h', fun _ hh => absurd hh (by simp [hp])⟩
  have hi := execInit_accepted (klen := 8) (key := 0x1000) (iva := 0x2000) (cta := 0) (s := State.reset) .cbc
    (by simp [Accepted, Mode.tag])
    ⟨(free rfl (by decide) (by decide)).1, fun _ => (free rfl (by decide) (by decide)).1, fun h => absurd h (by decide)⟩
  rw [initInstall_eq] at hi
  have hb {t : State} (hl : t.ctx.life = .ready) (hp : t.platform = []) :=
    (exec_bufferInstr .enc 1 1 0 t).trans (bufferCommand_accepted ⟨hl, by decide, by decide, fun _ => rfl⟩
      ⟨(free hp (by decide) (by decide)).1, (free hp (by decide) (by decide)).2, .inl rfl⟩)
  exact ⟨_, _, hi, rfl, hb rfl rfl, rfl, fun i _ => rfl⟩

theorem witness_LifecycleGate :
    State.reset.ctx.life ≠ .ready ∧ { ready .ecb with ctx := { (ready .ecb).ctx with life := .failed } }.ctx.life ≠ .ready := by
  decide +kernel

/-- A READY state in each mode, and the operands of each clause. -/
theorem witness_ReadyContextErrorsInOrder :
    (∀ m, (ready m).ctx.life = .ready ∧ (ready m).ctx.mode = m) ∧ (7 % 8 ≠ 0 ∧ 9 % 8 ≠ 0) := ⟨fun _ => ⟨rfl, rfl⟩, by decide⟩

theorem witness_ErrorsArePrecise : ∃ t, exec (.rstiv 0) (ready .cbc) = .next t ∧ t.resp.result ≠ .success ∧ t.resp.result ≠ .weakKey :=
  ⟨_, rfl, by decide, by decide⟩

/-- The first clause on a READY and on a VOID context and for a failed INIT, then the other three. -/
theorem witness_LifecycleTransitions :
    (∃ t, exec (.enc 1 2) (ready .ecb) = .next t) ∧ (∃ t, exec (.rstiv 1) State.reset = .next t) ∧
    (∃ t, exec (.init 0 0 1 0 0) State.reset = .next t) ∧
    (∃ e t, decode ⟨0, 5, 0, 0⟩ = .error e ∧ runDescriptor ⟨0, 5, 0, 0⟩ (ready .ecb) = .next t) ∧
    (∃ t, step { ready .ecb with host := [.reset] } = .next t) ∧
    ∃ t, step { ready .ecb with host := [.resetDuring ⟨0x08000000, 0, 0, 0⟩] } = .next t :=
  ⟨⟨_, rfl⟩, ⟨_, rfl⟩, ⟨_, rfl⟩, ⟨_, _, rfl, rfl⟩, ⟨_, rfl⟩, ⟨_, rfl⟩⟩

theorem witness_ResultCodesOfEachCommand : ∃ t, exec (.encb 1 1 7) (ready .cbc) = .next t ∧ t.resp.result = .badBufferLength :=
  ⟨_, rfl, rfl⟩

/-- Every mode and both directions, out of place and in place; and no bytes. -/
theorem witness_BufferCommandsFrame (m : Mode) (dir : Dir) :
    (Accepted (bufferInstr dir 1 (2 ^ 32 - 16) 16) (ready m) ∧ ValidBuffers (ready m) 1 (2 ^ 32 - 16) 16) ∧
    (Accepted (bufferInstr dir (2 ^ 32 - 16) (2 ^ 32 - 16) 16) (ready m) ∧
      ValidBuffers (ready m) (2 ^ 32 - 16) (2 ^ 32 - 16) 16) ∧
    Accepted (bufferInstr dir 1 (2 ^ 32) 0) (ready m) ∧ ValidBuffers (ready m) 1 (2 ^ 32 - 0) 0 :=
  ⟨⟨ready_accepted m dir (by decide) (by decide) rfl, ready_buffers m (by decide)⟩,
    ⟨ready_accepted m dir (by decide) (by decide) rfl, ready_inPlace m (by decide)⟩,
    ready_accepted m dir (by decide) (by decide) rfl, ready_buffers m (by decide)⟩

theorem witness_EcbEnciphersEachBlock (dir : Dir) : (ready .ecb).ctx.mode = .ecb ∧
    Accepted (bufferInstr dir 1 (2 ^ 32 - 16) 16) (ready .ecb) ∧ ValidBuffers (ready .ecb) 1 (2 ^ 32 - 16) 16 :=
  ⟨rfl, (witness_BufferCommandsFrame .ecb dir).1⟩

theorem witness_EcbBlockIsTheEncBlock :
    (ready .ecb).ctx.mode = .ecb ∧ (ready .ecb).ctx.life = .ready ∧ ValidBuffers (ready .ecb) 1 (2 ^ 32 - 8) 8 :=
  ⟨rfl, rfl, ready_buffers .ecb (by decide)⟩

theorem witness_CbcEncipherChains : (ready .cbc).ctx.mode = .cbc ∧
    Accepted (.encb 1 (2 ^ 32 - 16) 16) (ready .cbc) ∧ ValidBuffers (ready .cbc) 1 (2 ^ 32 - 16) 16 :=
  ⟨rfl, (witness_BufferCommandsFrame .cbc .enc).1⟩

theorem witness_CbcDecipherChains : (ready .cbc).ctx.mode = .cbc ∧
    Accepted (.decb (2 ^ 32 - 16) (2 ^ 32 - 16) 16) (ready .cbc) ∧
    ValidBuffers (ready .cbc) (2 ^ 32 - 16) (2 ^ 32 - 16) 16 :=
  ⟨rfl, (witness_BufferCommandsFrame .cbc .dec).2.1⟩

/-- `OFF` = 0 in each stream mode, and `OFF` = 7 of a context with the same lifecycle and mode. -/
theorem witness_OneStreamByte (m : Mode) (h : m = .cfb ∨ m = .ofb ∨ m = .ctr) (dir : Dir) :
    ((ready m).ctx.mode = .cfb ∨ (ready m).ctx.mode = .ofb ∨ (ready m).ctx.mode = .ctr) ∧ (ready m).ctx.off = 0 ∧
    Accepted (bufferInstr dir 1 (2 ^ 32 - 1) 1) (ready m) ∧ ValidBuffers (ready m) 1 (2 ^ 32 - 1) 1 ∧
    Accepted (bufferInstr dir 1 (2 ^ 32 - 1) 1) { ready m with ctx := { (ready m).ctx with off := 7 } } ∧
    ValidBuffers { ready m with ctx := { (ready m).ctx with off := 7 } } 1 (2 ^ 32 - 1) 1 := by
  have hm : m.isBlockMode = false := by rcases h with rfl | rfl | rfl <;> rfl
  have ha := ready_accepted_stream m dir (inp := 1) (out := 2 ^ 32 - 1) (len := 1) (by decide) (by decide) hm
  have hv := ready_buffers m (len := 1) (by decide)
  refine ⟨h, rfl, ha, hv, ?_, hv⟩
  cases dir <;> exact ha

theorem witness_CfbWholeBlocks (dir : Dir) : (ready .cfb).ctx.mode = .cfb ∧ (ready .cfb).ctx.off = 0 ∧
    Accepted (bufferInstr dir 1 (2 ^ 32 - 16) (8 * 2)) (ready .cfb) ∧ ValidBuffers (ready .cfb) 1 (2 ^ 32 - 16) (8 * 2) :=
  ⟨rfl, rfl, (witness_BufferCommandsFrame .cfb dir).1⟩

theorem witness_OfbWholeBlocks (dir : Dir) : (ready .ofb).ctx.mode = .ofb ∧ (ready .ofb).ctx.off = 0 ∧
    Accepted (bufferInstr dir 1 (2 ^ 32 - 16) (8 * 2)) (ready .ofb) ∧ ValidBuffers (ready .ofb) 1 (2 ^ 32 - 16) (8 * 2) :=
  ⟨rfl, rfl, (witness_BufferCommandsFrame .ofb dir).1⟩

theorem witness_CtrWholeBlocks (dir : Dir) : (ready .ctr).ctx.mode = .ctr ∧ (ready .ctr).ctx.off = 0 ∧
    Accepted (bufferInstr dir 1 (2 ^ 32 - 16) (8 * 2)) (ready .ctr) ∧ ValidBuffers (ready .ctr) 1 (2 ^ 32 - 16) (8 * 2) :=
  ⟨rfl, rfl, (witness_BufferCommandsFrame .ctr dir).1⟩

/-- A block mode in whole blocks; a stream mode in uneven pieces, one of them empty; an ENC before a piece. -/
theorem witness_ChunkEquivalence (dir : Dir) :
    (Accepted (bufferInstr dir 1 (2 ^ 32 - 24) [8, 0, 16].sum) (ready .cbc) ∧
      ValidBuffers (ready .cbc) 1 (2 ^ 32 - 24) [8, 0, 16].sum ∧ ∀ n ∈ [8, 0, 16], n % 8 = 0) ∧
    (Accepted (bufferInstr dir 1 (2 ^ 32 - 11) [3, 0, 8].sum) (ready .cfb) ∧
      ValidBuffers (ready .cfb) 1 (2 ^ 32 - 11) [3, 0, 8].sum) ∧
    ∃ t, exec (.enc 1 2) (ready .cfb) = .next t :=
  ⟨⟨ready_accepted .cbc dir (by decide) (by decide) rfl, ready_buffers .cbc (len := 24) (by decide), by decide⟩,
    ⟨ready_accepted_stream .cfb dir (by decide) (by decide) rfl, ready_buffers .cfb (len := 11) (by decide)⟩, _, rfl⟩

/-- ENCB in each mode, then the context put back. -/
theorem witness_RoundTrip (m : Mode) : ∃ t r : State,
    exec (.encb 1 (2 ^ 32 - 16) 16) (ready m) = .next t ∧ t.resp.result = .success ∧
    r.ctx = (ready m).ctx ∧ r.mem = t.mem ∧ ValidBuffers r (2 ^ 32 - 16) (2 ^ 32 - 16) 16 := by
  obtain ⟨t, ht, hr⟩ := ready_completes m .enc (witness_BufferCommandsFrame m .enc).1.1 (witness_BufferCommandsFrame m .enc).1.2
  exact ⟨t, { ready m with mem := t.mem }, ht, hr, rfl, rfl, ready_inPlace m (len := 16) (by decide)⟩

theorem witness_InPlaceEqualsOutOfPlace (m : Mode) (dir : Dir) :
    Accepted (bufferInstr dir 1 (2 ^ 32 - 16) 16) (ready m) ∧ ValidBuffers (ready m) 1 (2 ^ 32 - 16) 16 ∧
    ValidBuffers (ready m) 1 1 16 :=
  ⟨(witness_BufferCommandsFrame m dir).1.1, (witness_BufferCommandsFrame m dir).1.2,
    ready_readable m (by decide) (by decide), ready_writable m (by decide) (by decide), .inl rfl⟩

theorem witness_OfbAndCtrIgnoreDirection : (ready .ofb).ctx.mode = .ofb ∧ (ready .ctr).ctx.mode = .ctr := ⟨rfl, rfl⟩

/-- Two states of one context and different memories. -/
theorem witness_KeystreamIsIndependentOfTheData (dir : Dir) :
    { ready .ctr with mem := mem2000 }.ctx = (ready .ctr).ctx ∧ { ready .ctr with mem := mem2000 }.mem ≠ (ready .ctr).mem ∧
    Accepted (bufferInstr dir 1 (2 ^ 32 - 16) 16) { ready .ctr with mem := mem2000 } ∧
    ValidBuffers { ready .ctr with mem := mem2000 } 1 (2 ^ 32 - 16) 16 ∧
    Accepted (bufferInstr dir 1 (2 ^ 32 - 16) 16) (ready .ctr) ∧ ValidBuffers (ready .ctr) 1 (2 ^ 32 - 16) 16 := by
  have h := (witness_BufferCommandsFrame .ctr dir).1
  refine ⟨rfl, by decide, ?_, h.2, h⟩
  cases dir <;> exact h.1

/-- Both clauses: accepted with a region past the top of memory, accepted with valid regions, and not accepted. -/
theorem witness_CommandsStopOnlyOnMeaninglessRegions :
    (Accepted (.encb 1 (2 ^ 32 - 7) 8) (ready .ecb) ∧ ¬ ValidRegions (.encb 1 (2 ^ 32 - 7) 8) (ready .ecb)) ∧
    ValidRegions (.encb 1 (2 ^ 32 - 8) 8) (ready .ecb) ∧ ¬ Accepted (.encb 0 1 8) (ready .ecb) :=
  ⟨⟨ready_accepted .ecb .enc (by decide) (by decide) rfl, fun h => absurd h.2.1.2.1 (by decide)⟩,
    ready_buffers .ecb (by decide), fun h => absurd rfl h.2.1⟩

/-- One input for each breach: the region is one byte too long, or its last byte is what the platform forbids. -/
theorem witness_RefusalsByName :
    let s : State := { ready .cbc with platform := [⟨0x2007, 1, .device⟩, ⟨0x3007, 1, .readOnly⟩] }
    (Accepted (.encb (2 ^ 32 - 7) 1 8) s ∧ 2 ^ 32 < 2 ^ 32 - 7 + 8) ∧
    (Accepted (.encb 0x2000 1 8) s ∧ ¬ ReadableRegion s 0x2000 8) ∧
    (Accepted (.encb 0x3000 (2 ^ 32 - 7) 8) s ∧ ReadableRegion s 0x3000 8 ∧ 2 ^ 32 < 2 ^ 32 - 7 + 8) ∧
    ¬ WritableRegion s 0x3000 8 ∧
    (WritableRegion s 0x3008 8 ∧ ReadableRegion s 0x3001 8 ∧ ¬ DefinedPlacement 0x3001 0x3008 8) ∧
    (Accepted (.rstiv (2 ^ 32 - 7)) s ∧ Accepted (.rstiv 0x2000) s ∧ Accepted (.init 1 8 0x3000 0x2000 0) s ∧
      Accepted (.init 1 8 0x2000 0x3000 0) s ∧ Accepted (.init 1 8 (2 ^ 32 - 7) 0x3000 0) s) := by
  simp only [ReadableRegion, WritableRegion, DefinedPlacement, List.mem_cons, List.not_mem_nil, or_false, forall_eq_or_imp,
    forall_eq]
  refine ⟨⟨⟨rfl, by decide, by decide, fun _ => rfl⟩, by decide⟩, ⟨⟨rfl, by decide, by decide, fun _ => rfl⟩, fun h => ?_⟩,
    ⟨⟨rfl, by decide, by decide, fun _ => rfl⟩, ⟨by decide, by decide, fun _ a _ _ => by omega, fun h => absurd rfl h⟩,
      by decide⟩, fun h => ?_, ⟨⟨by decide, by decide, fun a _ _ => by omega, fun a _ _ => by omega⟩,
      ⟨by decide, by decide, fun _ a _ _ => by omega, fun h => absurd rfl h⟩, fun h => ?_⟩,
    ⟨rfl, by decide, .inl rfl⟩, ⟨rfl, by decide, .inl rfl⟩, ?_⟩
  · exact h.2.2.1 (by decide) 0x2007 (by decide) (by decide) (by decide)
  · exact h.2.2.2 0x3007 (by decide) (by decide) (by decide)
  · exact h.elim (by decide) fun h => h 0x3008 (by decide)
  · simp [Accepted]

/-- A step of each kind of action. -/
theorem witness_TablesImmutableAfterInit :
    (∃ t, step { ready .ecb with host := [.present ⟨0x06000000, 1, 2, 0⟩] } = .next t) ∧
    (∃ t, step { ready .ecb with host := [.write 1 2] } = .next t) ∧
    (∃ t, step { ready .ecb with host := [.reset] } = .next t) ∧
    ∃ t, step { ready .ecb with host := [.resetDuring ⟨0x06000000, 1, 2, 0⟩] } = .next t :=
  ⟨⟨_, rfl⟩, ⟨_, rfl⟩, ⟨_, rfl⟩, ⟨_, rfl⟩⟩

theorem witness_BlockResultWrittenByEncAndDecOnly :
    (∃ t, exec (.dec 1 2) (ready .ecb) = .next t) ∧ ∃ t, exec .tdn (ready .ecb) = .next t := ⟨⟨_, rfl⟩, ⟨_, rfl⟩⟩

theorem witness_OnlyTheOutputRegionChanges :
    (∃ t, exec (.encb 1 (2 ^ 32 - 16) 16) (ready .cfb) = .next t ∧ t.resp.result = .success) ∧
    ∃ t, exec (.encb 0 1 8) (ready .cfb) = .next t ∧ t.resp.result ≠ .success :=
  ⟨ready_completes .cfb .enc (witness_BufferCommandsFrame .cfb .enc).1.1 (witness_BufferCommandsFrame .cfb .enc).1.2,
    _, rfl, by decide⟩

/-- A READY state that meets the invariant (a context as INIT leaves it), and a step from it. -/
theorem witness_EveryStepKeepsTheInvariant :
    let s : State := { State.reset with
      ctx := initContext .ofb [0x41] ⟨1, 2⟩ ⟨0, 0⟩, mem := mem2000, host := [.present ⟨0x06000000, 1, 2, 0⟩] }
    MachineInv s ∧ s.ctx.life = .ready ∧ ∃ t, step s = .next t := by
  refine ⟨⟨by decide, by decide, fun h => absurd h (by simp [initContext]), fun _ => ?_,
    fun h => absurd h (by simp [initContext]), by decide, fun r hr => absurd hr (by simp [State.reset])⟩, rfl, ?_⟩
  · exact ⟨⟨[0x41], by decide, by decide, rfl⟩, weakFlag_eq_true _, fun _ => ⟨rfl, rfl⟩,
      fun h => absurd h (by simp [initContext]), fun _ => rfl, fun _ h => absurd rfl h⟩
  · simp only [step, runAction, presentCommand, runDescriptor]
    rw [show decode ⟨0x06000000, 1, 2, 0⟩ = .ok (.enc 1 2) from rfl]
    simp only [exec]
    rw [execEnc_accepted rfl]
    exact ⟨_, rfl⟩

/-- Two VOID states that differ in `IVL`, with a command pending that completes and one that would be refused on a READY
context. -/
theorem witness_RegistersOfAnUnusableContextAreUnobservable :
    let s : State := { State.reset with host := [.present ⟨0x06000000, 1, 2, 0⟩] }
    let t : State := { s with ctx := { s.ctx with iv := ⟨1, 0⟩ } }
    SameToHost s t ∧ s.ctx.iv ≠ t.ctx.iv ∧ (∃ s', step s = .next s') ∧
    ∃ r, step { s with host := [.present ⟨0x01000100, 0xFFFFFFFF, 0, 0⟩], platform := [⟨0xFFFFFFFF, 1, .device⟩] } = .refused r :=
  ⟨⟨rfl, rfl, rfl, rfl, rfl, rfl, rfl, fun h => absurd h (by decide +kernel)⟩, by decide +kernel, ⟨_, rfl⟩, ⟨_, rfl⟩⟩

end Sys2Proof.Tests
end

/-! PROOFS. Host memory and the packing of bytes, and the step that runs a presented command. -/

namespace Sys2Proof.Machine

/-! ## Read after write (R13, R71) -/

/-- A list of bytes written is read back. -/
@[simp] theorem memRead_memWrite_self (vs : List Byte) (m : Memory) (a : Nat) :
    memRead (memWrite m a vs) a vs.length = vs := by
  induction vs generalizing m a with
  | nil => rfl
  | cons v vs ih =>
    have hfirst : Memory.read (memWrite (Memory.write m a v) (a + 1) vs) a = v := by
      rw [read_memWrite_outside vs _ (.inl a.lt_succ_self), read_write_self]
    rw [memWrite, List.length_cons, memRead, hfirst, ih]

/-- Settles O11: each clause is a law of memory. -/
theorem readAfterWrite : Obligations.ReadAfterWrite :=
  ⟨read_write, fun m a vs => memRead_memWrite_self vs m a, fun m _ _ vs h => read_memWrite_outside vs m h⟩

/-! ## The packing of R12 -/

/-- The value of a concatenation: the left part stands above the `n` bits of the right one. -/
theorem toNat_append_eq_add {k n : Nat} (x : BitVec k) (y : BitVec n) :
    (x ++ y).toNat = x.toNat * 2 ^ n + y.toNat := by
  rw [BitVec.toNat_append, ← Nat.shiftLeft_add_eq_or_of_lt y.isLt, Nat.shiftLeft_eq]

/-- The value of `BE32`, its first byte the most significant (R12). -/
theorem toNat_be32 (b0 b1 b2 b3 : Byte) :
    (be32 b0 b1 b2 b3).toNat = b0.toNat * 2 ^ 24 + b1.toNat * 2 ^ 16 + b2.toNat * 2 ^ 8 + b3.toNat := by
  rw [be32_eq_append, toNat_append_eq_add, toNat_append_eq_add, toNat_append_eq_add]
  omega

@[simp] theorem unbe32_be32 (b0 b1 b2 b3 : Byte) : unbe32 (be32 b0 b1 b2 b3) = [b0, b1, b2, b3] := by
  simp [unbe32]

/-- `BE32` of the four bytes that `UNBE32` gives is the word again. -/
theorem be32_of_unbe32_eq {w : Word} {b0 b1 b2 b3 : Byte} (h : unbe32 w = [b0, b1, b2, b3]) :
    be32 b0 b1 b2 b3 = w := by
  simp only [unbe32, List.cons.injEq] at h
  obtain ⟨rfl, rfl, rfl, rfl, -⟩ := h
  exact be32_wordByte w

/-- Settles O12: the value of the packing, and the two inverse laws. -/
theorem packingIsBigEndian : Obligations.PackingIsBigEndian :=
  ⟨toNat_be32, unbe32_be32, fun _ => ⟨rfl, fun _ _ _ _ => be32_of_unbe32_eq⟩⟩

/-! ## The step that runs a presented descriptor (R84, R90) -/

/-- The host's next action, when there is one, is what the step does. -/
theorem step_of_host_eq_cons {s : State} {x : HostAction} {rest : List HostAction} (h : s.host = x :: rest) :
    step s = runAction x { s with host := rest } := by
  rw [step, h]

/-- A legal descriptor has the effect of its command. -/
theorem runDescriptor_of_decode_ok {d : Descriptor} {i : Instr} (h : decode d = .ok i) (s : State) :
    runDescriptor d s = exec i s := by
  rw [runDescriptor, h]

/-- What completes returns its response. -/
theorem presentCommand_of_next {d : Descriptor} {s t : State} (h : runDescriptor d s = .next t) :
    presentCommand d s = .next (respond t) := by
  rw [presentCommand, h]

/-- What is refused returns no response. -/
theorem presentCommand_of_refused {d : Descriptor} {s : State} {r : Refusal} (h : runDescriptor d s = .refused r) :
    presentCommand d s = .refused r := by
  rw [presentCommand, h]

/-- Settles O5: the step is the presentation of the descriptor, whose effect is that of the decoded command. -/
theorem presentedDescriptorRunsItsCommand : Obligations.PresentedDescriptorRunsItsCommand := by
  intro s d rest i hhost hdecode
  have hstep : step s = presentCommand d { s with host := rest } := step_of_host_eq_cons hhost
  have hrun := runDescriptor_of_decode_ok hdecode { s with host := rest }
  exact ⟨fun t ht => hstep.trans (presentCommand_of_next (hrun.trans ht)),
    fun r hr => hstep.trans (presentCommand_of_refused (hrun.trans hr))⟩

end Sys2Proof.Machine

/-! PROOFS. The state of the machine (10_state.md): what a command and a step can do, said once, and from it the
lifecycle, the frames, the invariant of every run, and that an unusable context cannot be observed. -/

namespace Sys2Proof.Machine

/-! ## The fields after the shared operations -/

@[simp] theorem finish_ctx (c : ResultCode) (s : State) : (finish c s).ctx =
    { s.ctx with life := if c.isError = true ∧ s.ctx.life = .ready then .failed else s.ctx.life } := by
  rw [finish_eq]

@[simp] theorem finish_resp (c : ResultCode) (s : State) : (finish c s).resp = { s.resp with result := c } := by
  rw [finish_eq]

@[simp] theorem finish_mem (c : ResultCode) (s : State) : (finish c s).mem = s.mem := by rw [finish_eq]

@[simp] theorem finishInit_ctx (c : ResultCode) (s : State) : (finishInit c s).ctx =
    { s.ctx with life := if c.isError = true then .failed else s.ctx.life } := by
  rw [finishInit_eq]

@[simp] theorem finishInit_resp (c : ResultCode) (s : State) : (finishInit c s).resp = { s.resp with result := c } := by
  rw [finishInit_eq]

@[simp] theorem finishInit_mem (c : ResultCode) (s : State) : (finishInit c s).mem = s.mem := by rw [finishInit_eq]

@[simp] theorem initInstall_ctx (m : Mode) (klen key iva cta : Nat) (s : State) :
    (initInstall m klen key iva cta s).ctx = initContext m (memRead s.mem key klen)
      (if m.usesIv then memReadBlock s.mem iva else ⟨0, 0⟩) (if m.usesCtr then memReadBlock s.mem cta else ⟨0, 0⟩) := by
  rw [initInstall_eq]; rfl

@[simp] theorem initInstall_resp (m : Mode) (klen key iva cta : Nat) (s : State) :
    (initInstall m klen key iva cta s).resp =
      { s.resp with result := initCode (weakFlag (keySchedule (memRead s.mem key klen)).p) } := by
  rw [initInstall_eq]; rfl

@[simp] theorem initInstall_mem (m : Mode) (klen key iva cta : Nat) (s : State) :
    (initInstall m klen key iva cta s).mem = s.mem := by
  rw [initInstall_eq]; rfl

@[simp] theorem runMode_resp (dir : Dir) (inp out len : Nat) (s : State) :
    (runMode dir inp out len s).resp = s.resp := by
  rw [runMode_frame]; rfl

@[simp] theorem outputRegion_bufferInstr (dir : Dir) (inp out len : Nat) :
    outputRegion (bufferInstr dir inp out len) = (out, len) := by
  cases dir <;> rfl

/-- The code of an INIT that passed its checks is no error (R187). -/
theorem initCode_cases (w : Bool) : initCode w = .success ∨ initCode w = .weakKey := by
  cases w
  · exact .inl rfl
  · exact .inr rfl

/-! ## The codes of the failed checks (R201) -/

/-- The codes with which the checks of a command other than INIT fail: BadBufferLength on a READY context in a block
mode only (R141, R182, R191). -/
def FailureCode (s : State) (c : ResultCode) : Prop :=
  c = .invalidParameter ∨ (c = .badBufferLength ∧ s.ctx.life = .ready ∧ s.ctx.mode.isBlockMode = true)

theorem FailureCode.isError {s : State} {c : ResultCode} (h : FailureCode s c) : c.isError = true := by
  rcases h with rfl | ⟨rfl, -, -⟩ <;> rfl

theorem FailureCode.of_not_ready {s : State} {c : ResultCode} (h : FailureCode s c) (hl : s.ctx.life ≠ .ready) :
    c = .invalidParameter :=
  h.resolve_right fun hbad => hl hbad.2.1

theorem bufferError_code {inp out len : Nat} {s : State} {c : ResultCode} (h : bufferError inp out len s = some c) :
    FailureCode s c := by
  unfold bufferError at h
  split at h
  · cases h; exact .inl rfl
  · rename_i hlife
    split at h
    · cases h; exact .inl rfl
    · split at h
      · rename_i hlen
        cases h
        exact .inr ⟨rfl, Decidable.not_not.mp hlife, (Bool.and_eq_true_iff.mp hlen).1⟩
      · cases h

/-- Which codes the checks of INIT give (R183 to R185). -/
theorem initChecks_code {mode klen key iva cta : Nat} {c : ResultCode}
    (h : initChecks mode klen key iva cta = .error c) :
    c = .invalidParameter ∨ c = .invalidKey ∨ c = .invalidMode := by
  unfold initChecks at h
  split at h
  · cases h; exact .inl rfl
  · split at h
    · cases h; exact .inr (.inl rfl)
    · split at h
      · cases h; exact .inr (.inr rfl)
      · split at h
        · cases h; exact .inl rfl
        · split at h
          · cases h; exact .inl rfl
          · cases h

/-! ## What a command can do -/

/-- What a command that answers a next state can have done: the checks of INIT failed, the checks of another command
failed, or the command had the effect of its row. -/
inductive CommandEffect (s : State) : Instr → State → Prop
  | initFails {mode klen key iva cta : Nat} {c : ResultCode} (hc : initChecks mode klen key iva cta = .error c) :
    CommandEffect s (.init mode klen key iva cta) (finishInit c s)
  | fails {i : Instr} {c : ResultCode} (hi : ∀ mode klen key iva cta, i ≠ .init mode klen key iva cta)
    (ha : ¬ Accepted i s) (hc : FailureCode s c) : CommandEffect s i (finish c s)
  | initInstalls {mode klen key iva cta : Nat} (m : Mode) (hm : mode = m.tag.toNat)
    (ha : Accepted (.init mode klen key iva cta) s) (hr : ValidRegions (.init mode klen key iva cta) s) :
    CommandEffect s (.init mode klen key iva cta) (initInstall m klen key iva cta s)
  | ivReseeded {iva : Nat} (ha : Accepted (.rstiv iva) s) (hr : ReadableRegion s iva 8) :
    CommandEffect s (.rstiv iva) ((s.setCtx (s.ctx.setIv (memReadBlock s.mem iva)).clearStream).setResult .success)
  | ctrReseeded {cta : Nat} (ha : Accepted (.rstctr cta) s) (hr : ReadableRegion s cta 8) :
    CommandEffect s (.rstctr cta) ((s.setCtx (s.ctx.setCtr (memReadBlock s.mem cta)).clearStream).setResult .success)
  | bufferRun (dir : Dir) (inp out len : Nat) (ha : Accepted (.encb inp out len) s) (hr : ValidBuffers s inp out len) :
    CommandEffect s (bufferInstr dir inp out len) ((runMode dir inp out len s).setResult .success)
  | enciphers {l r : Word} (hl : s.ctx.life = .ready) :
    CommandEffect s (.enc l r) ((s.setBlockResult (encBlock s.ctx.tables ⟨l, r⟩)).setResult .success)
  | deciphers {l r : Word} (hl : s.ctx.life = .ready) :
    CommandEffect s (.dec l r) ((s.setBlockResult (decBlock s.ctx.tables ⟨l, r⟩)).setResult .success)
  | tornDown : CommandEffect s .tdn ((s.setCtx Context.zero).setResult .success)

theorem bufferCommand_effect {dir : Dir} {inp out len : Nat} {s t : State}
    (h : bufferCommand dir inp out len s = .next t) : CommandEffect s (bufferInstr dir inp out len) t := by
  rcases bufferCommand_cases h with ⟨c, hc, -, rfl⟩ | ⟨ha, hr, rfl⟩
  · have hrej : ¬ Accepted (.encb inp out len) s := by
      rw [← bufferError_eq_none, hc]; exact Option.some_ne_none c
    refine .fails (fun _ _ _ _ _ => ?_) ?_ (bufferError_code hc)
    · cases dir <;> exact Instr.noConfusion
    · cases dir <;> exact hrej
  · exact .bufferRun dir inp out len ha hr

theorem exec_effect {i : Instr} {s t : State} (h : exec i s = .next t) : CommandEffect s i t := by
  cases i with
  | init mode klen key iva cta =>
    rcases execInit_cases h with ⟨c, hc, -, rfl⟩ | ⟨m, hm, ha, hr, rfl⟩
    · exact .initFails hc
    · exact .initInstalls m hm ha hr
  | rstiv iva =>
    rcases execRstiv_cases h with ⟨ha, rfl⟩ | ⟨ha, hr, rfl⟩
    · exact .fails (by simp) ha (.inl rfl)
    · exact .ivReseeded ha hr
  | rstctr cta =>
    rcases execRstctr_cases h with ⟨ha, rfl⟩ | ⟨ha, hr, rfl⟩
    · exact .fails (by simp) ha (.inl rfl)
    · exact .ctrReseeded ha hr
  | encb inp out len => exact bufferCommand_effect (dir := .enc) h
  | decb inp out len => exact bufferCommand_effect (dir := .dec) h
  | enc l r =>
    rcases execEnc_cases h with ⟨hl, rfl⟩ | ⟨hl, rfl⟩
    · exact .fails (by simp) hl (.inl rfl)
    · exact .enciphers hl
  | dec l r =>
    rcases execDec_cases h with ⟨hl, rfl⟩ | ⟨hl, rfl⟩
    · exact .fails (by simp) hl (.inl rfl)
    · exact .deciphers hl
  | tdn => cases h; exact .tornDown

/-! ## What a step can do -/

theorem runDescriptor_cases {d : Descriptor} {s t : State} (h : runDescriptor d s = .next t) :
    (∃ i, decode d = .ok i ∧ exec i s = .next t) ∨ (∃ e, decode d = .error e ∧ t = illegalDescriptor s) := by
  unfold runDescriptor at h
  split at h
  · exact .inl ⟨_, ‹_›, h⟩
  · cases h; exact .inr ⟨_, ‹_›, rfl⟩

theorem presentCommand_cases {d : Descriptor} {s t : State} (h : presentCommand d s = .next t) :
    ∃ u, runDescriptor d s = .next u ∧ t = respond u := by
  unfold presentCommand at h
  split at h <;> cases h
  exact ⟨_, ‹_›, rfl⟩

theorem hostWrite_cases {a : Word} {v : Byte} {s t : State} (h : hostWrite a v s = .next t) :
    t = s.setMem (Memory.write s.mem a.toNat v) := by
  unfold hostWrite at h
  split at h <;> cases h
  rfl

/-- The memory `m` that an interrupted command leaves is the old one, or the command was legal and `m` is what it
abandoned (R231). -/
theorem resetDuringCommand_cases {d : Descriptor} {s t : State} (h : resetDuringCommand d s = .next t) :
    ∃ m n, t = hardwareReset { s with mem := m, freeDraws := n } ∧
      (m = s.mem ∨ ∃ i u, exec i s = .next u ∧ m = abandonedMemory i s u) := by
  unfold resetDuringCommand at h
  split at h
  · cases h; exact ⟨s.mem, s.freeDraws, rfl, .inl rfl⟩
  · split at h <;> cases h
    exact ⟨_, _, rfl, .inr ⟨_, _, ‹_›, rfl⟩⟩

theorem step_cases {s t : State} (h : step s = .next t) :
    t = s ∨ ∃ x rest, s.host = x :: rest ∧ runAction x { s with host := rest } = .next t := by
  cases hs : s.host with
  | nil => rw [step, hs] at h; cases h; exact .inl rfl
  | cons x rest => exact .inr ⟨x, rest, rfl, step_of_host_eq_cons hs ▸ h⟩

/-! ## Reset (R40, R230) -/

/-- Settles O8: the reset values are zero, register by register, and a step that asserts reset is `hardwareReset`. -/
theorem hardwareResetZeroesTheEngine : Obligations.HardwareResetZeroesTheEngine := by
  refine ⟨⟨rfl, rfl⟩, fun s rest h => step_of_host_eq_cons h, fun s h => by rw [step, h],
    fun i => ?_, fun j i => ?_, rfl, rfl, rfl, fun i => ?_, rfl, rfl, rfl, rfl⟩
  all_goals simp [Context.zero, Tables.zero]

/-- Settles O58: the reset context is VOID and all zero, and nothing is listed or reported yet. -/
theorem invariantHoldsAtReset : Obligations.InvariantHoldsAtReset where
  memWf := reset_mem_wf
  memInSpace := by simp [State.reset]
  void _ := rfl
  ready h := nomatch h
  failed h := nomatch h
  result := by simp [State.reset, ResponseRegs.zero]
  responses := by simp [State.reset]

/-! ## Who writes the tables and the block result (R23, R30) -/

theorem exec_tables {i : Instr} {s t : State} (h : exec i s = .next t) :
    t.ctx.tables = s.ctx.tables ∨ i = .tdn ∨ ∃ mode klen key iva cta, i = .init mode klen key iva cta := by
  cases exec_effect h with
  | initFails => exact .inr (.inr ⟨_, _, _, _, _, rfl⟩)
  | fails => left; simp
  | initInstalls => exact .inr (.inr ⟨_, _, _, _, _, rfl⟩)
  | ivReseeded => exact .inl rfl
  | ctrReseeded => exact .inl rfl
  | bufferRun dir inp out len => exact .inl (runMode_sameKey dir inp out len s).tables
  | enciphers => exact .inl rfl
  | deciphers => exact .inl rfl
  | tornDown => exact .inr (.inl rfl)

/-- Settles O55: only a presented legal descriptor runs a command, and of the commands only INIT and TDN write `P` or
`S`. -/
theorem tablesImmutableAfterInit : Obligations.TablesImmutableAfterInit := by
  intro s t x rest hhost hstep
  rw [step_of_host_eq_cons hhost] at hstep
  cases x with
  | present d =>
    obtain ⟨u, hu, rfl⟩ := presentCommand_cases hstep
    rcases runDescriptor_cases hu with ⟨i, hi, hexec⟩ | ⟨e, -, rfl⟩
    · exact (exec_tables hexec).imp id fun hwrites => .inr (.inr ⟨d, i, rfl, hi, hwrites⟩)
    · exact .inl rfl
  | write a v => rw [hostWrite_cases hstep]; exact .inl rfl
  | reset => exact .inr (.inl rfl)
  | resetDuring d => exact .inr (.inr (.inl ⟨d, rfl⟩))

/-- Settles O56: the effects of ENC and DEC are the only ones that write the block result. -/
theorem blockResultWrittenByEncAndDecOnly : Obligations.BlockResultWrittenByEncAndDecOnly := by
  intro i s t h
  cases exec_effect h with
  | enciphers hl => exact .inr ⟨rfl, hl, .inl ⟨_, _, rfl⟩⟩
  | deciphers hl => exact .inr ⟨rfl, hl, .inr ⟨_, _, rfl⟩⟩
  | _ => left; simp

/-! ## The lifecycle (R31, R32) -/

/-- The rows of R32 for the reseeds and the buffer commands. -/
def GatedTransition (s t : State) : Prop :=
  if s.ctx.life = .ready then
    if t.resp.result = .success then t.ctx.life = .ready else t.ctx.life = .failed
  else t.resp.result = .invalidParameter ∧ t.ctx.life = s.ctx.life

theorem gatedTransition_of_success {s t : State} (hs : s.ctx.life = .ready) (hr : t.resp.result = .success)
    (ht : t.ctx.life = .ready) : GatedTransition s t := by
  rw [GatedTransition, if_pos hs, if_pos hr]; exact ht

/-- A failed check on a context that is not READY (R182). -/
theorem finish_of_not_ready {c : ResultCode} {s : State} (hc : FailureCode s c) (hl : s.ctx.life ≠ .ready) :
    (finish c s).resp.result = .invalidParameter ∧ (finish c s).ctx.life = s.ctx.life :=
  ⟨by simpa using hc.of_not_ready hl, by simp [hl]⟩

/-- A failed check leaves a READY context FAILED and any other as it is. -/
theorem gatedTransition_finish {c : ResultCode} {s : State} (hc : FailureCode s c) : GatedTransition s (finish c s) := by
  unfold GatedTransition
  split
  · rename_i hl
    have hne : c ≠ .success := by rintro rfl; cases hc.isError
    rw [if_neg (by simpa using hne)]
    simp [hc.isError, hl]
  · exact finish_of_not_ready hc ‹_›

/-- Settles O35: the row of each command from what it can do, then the descriptor that is no command and the two
resets. -/
theorem lifecycleTransitions : Obligations.LifecycleTransitions := by
  refine ⟨fun i s t h => ?_, fun d e s t hd hrun => ?_, fun s t rest hhost hstep => ?_,
    fun s t d rest hhost hstep => ?_⟩
  · cases exec_effect h with
    | initFails hc =>
      have herr := initChecks_isError hc
      rcases initChecks_code hc with rfl | rfl | rfl <;> simp [herr]
    | fails hi ha hc =>
      cases i with
      | init => exact absurd rfl (hi _ _ _ _ _)
      | tdn => exact absurd trivial ha
      | enc => exact (if_neg ha).mpr (finish_of_not_ready hc ha)
      | dec => exact (if_neg ha).mpr (finish_of_not_ready hc ha)
      | rstiv => exact gatedTransition_finish hc
      | rstctr => exact gatedTransition_finish hc
      | encb => exact gatedTransition_finish hc
      | decb => exact gatedTransition_finish hc
    | initInstalls =>
      dsimp only
      rw [if_pos (by simpa using initCode_cases _)]
      simp [initContext]
    | ivReseeded ha => exact gatedTransition_of_success ha.1 rfl ha.1
    | ctrReseeded ha => exact gatedTransition_of_success ha.1 rfl ha.1
    | bufferRun dir inp out len ha =>
      have hready := (runMode_sameKey dir inp out len s).life.trans ha.1
      cases dir <;> exact gatedTransition_of_success ha.1 rfl hready
    | enciphers hl => exact (if_pos hl).mpr ⟨rfl, hl⟩
    | deciphers hl => exact (if_pos hl).mpr ⟨rfl, hl⟩
    | tornDown => exact ⟨rfl, rfl⟩
  · rcases runDescriptor_cases hrun with ⟨i, hi, -⟩ | ⟨-, -, rfl⟩
    · rw [hd] at hi; cases hi
    · exact ⟨rfl, rfl⟩
  · rw [step_of_host_eq_cons hhost] at hstep
    cases hstep
    rfl
  · rw [step_of_host_eq_cons hhost] at hstep
    obtain ⟨m, n, rfl, -⟩ := resetDuringCommand_cases hstep
    rfl

/-! ## The frame of ENCB and DECB (R41, R62) -/

theorem isBlockMode_iff (m : Mode) : m.isBlockMode = true ↔ m = .ecb ∨ m = .cbc := by
  cases m <;> simp [Mode.isBlockMode]

@[simp] theorem blockUnit_ecb_ctx (dir : Dir) (c : Context) (b : Block) : (blockUnit .ecb dir c b).1 = c := by
  cases dir <;> rfl

/-- A block of a block mode writes no register but `IVL` and `IVR`. -/
theorem blockUnit_ctx (m : Mode) (dir : Dir) (c : Context) (b : Block) :
    (blockUnit m dir c b).1 = c.setIv (blockUnit m dir c b).1.iv := by
  cases m <;> cases dir <;> rfl

@[simp] theorem runMode_zero (dir : Dir) (inp out : Nat) (s : State) : runMode dir inp out 0 s = s := by
  cases hb : s.ctx.mode.isBlockMode
  · rw [runMode_stream _ _ _ _ _ hb]; rfl
  · rw [runMode_block _ _ _ _ _ hb]; rfl

section
variable (dir : Dir) (inp out len : Nat) {s : State}

/-- ECB and CTR leave the IV register alone. -/
theorem runMode_iv (hm : s.ctx.mode = .ecb ∨ s.ctx.mode = .ctr) : (runMode dir inp out len s).ctx.iv = s.ctx.iv := by
  refine (runMode_keeps (Q := fun c => c.mode = s.ctx.mode ∧ c.iv = s.ctx.iv) dir inp out len s
    (fun hb c b hc => ?_) (fun hb c x hc => ?_) ⟨rfl, rfl⟩).2
  · rcases hm with hm | hm
    · rw [hm, blockUnit_ecb_ctx, ← hm]; exact hc
    · rw [hm] at hb; cases hb
  · rcases hm with hm | hm
    · rw [hm] at hb; cases hb
    · exact ⟨(streamByte_sameKey dir c x).mode.trans hc.1,
        (streamByte_iv_of_ctr dir c x (hc.1.trans hm)).trans hc.2⟩

/-- Every mode but CTR leaves the counter alone. -/
theorem runMode_ctr (hm : s.ctx.mode ≠ .ctr) : (runMode dir inp out len s).ctx.ctr = s.ctx.ctr :=
  (runMode_keeps (Q := fun c => c.mode = s.ctx.mode ∧ c.ctr = s.ctx.ctr) dir inp out len s
    (fun _ c b hc => by rw [blockUnit_ctx]; exact hc)
    (fun _ c x hc => ⟨(streamByte_sameKey dir c x).mode.trans hc.1,
      (streamByte_ctr dir c x (hc.1 ▸ hm)).trans hc.2⟩) ⟨rfl, rfl⟩).2

/-- The block modes leave the keystream registers alone. -/
theorem runMode_keystream (hm : s.ctx.mode = .ecb ∨ s.ctx.mode = .cbc) :
    (runMode dir inp out len s).ctx.ks = s.ctx.ks ∧ (runMode dir inp out len s).ctx.off = s.ctx.off :=
  runMode_keeps (Q := fun c => c.ks = s.ctx.ks ∧ c.off = s.ctx.off) dir inp out len s
    (fun _ c b hc => by rw [blockUnit_ctx]; exact hc)
    (fun hb => absurd ((isBlockMode_iff _).mpr hm) (by simp [hb])) ⟨rfl, rfl⟩

end

/-- Settles O37: the command is the run of the mode driver, whose frame is said by the lemmas about `runMode`. -/
theorem bufferCommandsFrame : Obligations.BufferCommandsFrame := by
  intro s dir inp out len ha hr
  have haccepted : Accepted (.encb inp out len) s := by cases dir <;> exact ha
  have hexec : exec (bufferInstr dir inp out len) s = .next ((runMode dir inp out len s).setResult .success) :=
    (exec_bufferInstr dir inp out len s).trans (bufferCommand_accepted haccepted hr)
  obtain ⟨hplatform, hhost, hresponses, hdraws⟩ := exec_surroundings hexec
  obtain ⟨htables, hmode, hweak, hlife⟩ := runMode_sameKey dir inp out len s
  refine ⟨_, hexec, by simp, hplatform, hhost, hresponses, hdraws, htables, hmode, hweak, hlife,
    runMode_iv dir inp out len, runMode_ctr dir inp out len, runMode_keystream dir inp out len, ?_,
    runMode_read_outside dir inp out len s⟩
  rintro rfl
  simp

/-! ## The invariant: contexts (R33, R166, R189) -/

/-- Whenever `OFF ≠ 0`, `KS` is the bytes of the IV register (R166). -/
def KeystreamIsIv (c : Context) : Prop := c.off ≠ 0 → c.ks.toList = blockBytes c.iv

/-- In OFB a stream byte refills an empty keystream and advances `OFF`. -/
theorem streamByte_ofb_ctx (dir : Dir) {c : Context} (x : Byte) (hm : c.mode = .ofb) :
    (streamByte dir c x).1 = (if c.off = 0 then refill c else c).advanceOff := by
  have hmode : (if c.off = 0 then refill c else c).mode ≠ .cfb := by
    split
    · rw [(refill_sameKey c).mode, hm]; decide
    · rw [hm]; decide
  simp only [streamByte, useKeystream, if_neg hmode]

/-- In OFB the refill puts the same block into `KS` and the IV register. -/
theorem refill_ofb_ks {c : Context} (hm : c.mode = .ofb) : (refill c).ks.toList = blockBytes (refill c).iv := by
  rw [refill, hm]; rfl

theorem streamByte_keystreamIsIv (dir : Dir) {c : Context} (x : Byte) (hm : c.mode = .ofb) (hc : KeystreamIsIv c) :
    KeystreamIsIv (streamByte dir c x).1 := by
  intro _
  rw [streamByte_ofb_ctx dir x hm]
  split
  · exact refill_ofb_ks hm
  · exact hc ‹_›

theorem runMode_keystreamIsIv (dir : Dir) (inp out len : Nat) {s : State} (hm : s.ctx.mode = .ofb)
    (h : KeystreamIsIv s.ctx) : KeystreamIsIv (runMode dir inp out len s).ctx :=
  (runMode_keeps (Q := fun c => c.mode = .ofb ∧ KeystreamIsIv c) dir inp out len s
    (fun hb => by rw [hm] at hb; cases hb)
    (fun _ c x hc => ⟨(streamByte_sameKey dir c x).mode.trans hc.1, streamByte_keystreamIsIv dir x hc.1 hc.2⟩)
    ⟨hm, h⟩).2

/-- A buffer command keeps a complete context complete. -/
theorem runMode_complete (dir : Dir) (inp out len : Nat) {s : State} (h : CompleteContext s.ctx) :
    CompleteContext (runMode dir inp out len s).ctx := by
  obtain ⟨htables, hmode, hweak, -⟩ := runMode_sameKey dir inp out len s
  refine ⟨htables ▸ h.tables, by rw [hweak, htables]; exact h.weak, ?_, ?_, ?_, ?_⟩ <;> rw [hmode] <;> intro hm
  · obtain ⟨hks, hoff⟩ := runMode_keystream dir inp out len hm
    rw [hks, hoff]; exact h.blockMode hm
  · rw [runMode_iv dir inp out len hm]; exact h.noIv hm
  · rw [runMode_ctr dir inp out len hm]; exact h.noCtr hm
  · exact runMode_keystreamIsIv dir inp out len hm (h.ofb hm)

/-- RSTIV keeps a complete context complete. -/
theorem CompleteContext.reseedIv {c : Context} (h : CompleteContext c) (b : Block)
    (hm : c.mode = .cbc ∨ c.mode = .cfb ∨ c.mode = .ofb) : CompleteContext (c.setIv b).clearStream where
  tables := h.tables
  weak := h.weak
  blockMode _ := ⟨rfl, rfl⟩
  noIv hno := by rcases hm with hm | hm | hm <;> simp [hm] at hno
  noCtr := h.noCtr
  ofb _ hoff := absurd rfl hoff

/-- RSTCTR keeps a complete context complete. -/
theorem CompleteContext.reseedCtr {c : Context} (h : CompleteContext c) (b : Block) (hm : c.mode = .ctr) :
    CompleteContext (c.setCtr b).clearStream where
  tables := h.tables
  weak := h.weak
  blockMode _ := ⟨rfl, rfl⟩
  noIv := h.noIv
  noCtr hno := absurd hm hno
  ofb _ hoff := absurd rfl hoff

theorem usesCtr_iff (m : Mode) : m.usesCtr = true ↔ m = .ctr := by
  cases m <;> simp [Mode.usesCtr]

/-- INIT installs a complete context (R186). -/
theorem initContext_complete (m : Mode) (key : List Byte) (iv ctr : Block) (hkey : 1 ≤ key.length ∧ key.length ≤ 56) :
    CompleteContext (initContext m key (if m.usesIv then iv else ⟨0, 0⟩) (if m.usesCtr then ctr else ⟨0, 0⟩)) where
  tables := ⟨key, hkey.1, hkey.2, rfl⟩
  weak := weakFlag_eq_true _
  blockMode _ := ⟨rfl, rfl⟩
  noIv hm := by rcases hm with hm | hm <;> obtain rfl : m = _ := hm <;> rfl
  noCtr hm := if_neg (mt (usesCtr_iff m).mp hm)
  ofb _ hoff := absurd rfl hoff

/-- `LIFE` has no part in completeness. -/
theorem CompleteContext.withLife {c : Context} (h : CompleteContext c) (l : Life) :
    CompleteContext { c with life := l } :=
  ⟨h.tables, h.weak, h.blockMode, h.noIv, h.noCtr, h.ofb⟩

/-- What the invariant says of the context: complete and not VOID, or all zero, `LIFE` apart, and not READY. -/
def ContextInv (c : Context) : Prop :=
  (CompleteContext c ∧ c.life ≠ .void) ∨ (c = { Context.zero with life := c.life } ∧ c.life ≠ .ready)

theorem MachineInv.context {s : State} (h : MachineInv s) : ContextInv s.ctx := by
  cases hl : s.ctx.life with
  | void => exact .inr ⟨by rw [hl]; exact h.void hl, by simp [hl]⟩
  | ready => exact .inl ⟨h.ready hl, by simp [hl]⟩
  | failed => exact (h.failed hl).imp (fun hc => ⟨hc, by simp [hl]⟩) fun hz => ⟨by rw [hl]; exact hz, by simp [hl]⟩

theorem ContextInv.complete_of_ready {c : Context} (h : ContextInv c) (hl : c.life = .ready) : CompleteContext c :=
  h.elim And.left fun hz => absurd hl hz.2

theorem ContextInv.zero_of_void {c : Context} (h : ContextInv c) (hl : c.life = .void) : c = Context.zero := by
  rcases h with ⟨-, hne⟩ | ⟨hz, -⟩
  · exact absurd hl hne
  · rw [hl] at hz; exact hz

theorem ContextInv.of_failed {c : Context} (h : ContextInv c) (hl : c.life = .failed) :
    CompleteContext c ∨ c = { Context.zero with life := .failed } := by
  rcases h with ⟨hc, -⟩ | ⟨hz, -⟩
  · exact .inl hc
  · rw [hl] at hz; exact .inr hz

theorem contextInv_zero : ContextInv Context.zero := .inr ⟨rfl, Life.noConfusion⟩

/-- Becoming FAILED keeps what the context had. -/
theorem ContextInv.fail {c : Context} (h : ContextInv c) : ContextInv { c with life := .failed } :=
  h.imp (fun hc => ⟨hc.1.withLife _, Life.noConfusion⟩)
    fun hz => ⟨congrArg (fun d : Context => { d with life := .failed }) hz.1, Life.noConfusion⟩

theorem exec_contextInv {i : Instr} {s t : State} (h : exec i s = .next t) (hs : ContextInv s.ctx) :
    ContextInv t.ctx := by
  cases exec_effect h with
  | initFails hc =>
    rw [finishInit_ctx, if_pos (initChecks_isError hc)]
    exact hs.fail
  | fails =>
    rw [finish_ctx]
    split
    · exact hs.fail
    · exact hs
  | initInstalls m hm ha =>
    obtain ⟨-, hlo, hhi, -⟩ := ha
    rw [initInstall_ctx]
    exact .inl ⟨initContext_complete m _ _ _ (by simp [hlo, hhi]), Life.noConfusion⟩
  | ivReseeded ha =>
    obtain ⟨hl, -, hm⟩ := ha
    exact .inl ⟨(hs.complete_of_ready hl).reseedIv _ hm, by simp [hl]⟩
  | ctrReseeded ha =>
    obtain ⟨hl, -, hm⟩ := ha
    exact .inl ⟨(hs.complete_of_ready hl).reseedCtr _ hm, by simp [hl]⟩
  | bufferRun dir inp out len ha =>
    exact .inl ⟨runMode_complete dir inp out len (hs.complete_of_ready ha.1),
      by simp [(runMode_sameKey dir inp out len s).life, ha.1]⟩
  | enciphers => exact hs
  | deciphers => exact hs
  | tornDown => exact contextInv_zero

/-! ## The invariant: memory -/

/-- Memory is in its canonical form, and every listed address exists. -/
def MemoryInv (m : Memory) : Prop := Memory.wf m ∧ Memory.inSpace m

theorem MemoryInv.write {m : Memory} (h : MemoryInv m) {a : Nat} (ha : a < Config.addressSpace) (v : Byte) :
    MemoryInv (Memory.write m a v) :=
  ⟨write_wf h.1 a v, write_inSpace h.2 ha v⟩

theorem exec_memoryInv {i : Instr} {s t : State} (h : exec i s = .next t) (hs : MemoryInv s.mem) : MemoryInv t.mem := by
  cases exec_effect h with
  | bufferRun dir inp out len ha hr =>
    obtain ⟨-, ⟨-, hspace, -⟩, -⟩ := hr
    exact ⟨runMode_wf dir inp out len s hs.1, runMode_inSpace dir inp out len s hs.2 hspace⟩
  | _ => simpa using hs

/-- The output region of a command that completes lies in the address space (R63). -/
theorem outputRegion_le_addressSpace {i : Instr} {s t : State} (h : exec i s = .next t)
    (ht : t.resp.result = .success) : (outputRegion i).1 + (outputRegion i).2 ≤ Config.addressSpace := by
  cases exec_effect h with
  | fails hi ha hc =>
    obtain rfl : _ = ResultCode.success := by simpa using ht
    cases hc.isError
  | bufferRun dir inp out len ha hr =>
    obtain ⟨-, ⟨-, hspace, -⟩, -⟩ := hr
    rw [outputRegion_bufferInstr]
    exact hspace
  | _ => exact Nat.zero_le _

theorem interruptedMemory_memoryInv (draw : Nat) {old : Memory} (new : Memory) (a : Nat) (h : MemoryInv old) (n : Nat)
    (hn : a + n ≤ Config.addressSpace) : MemoryInv (interruptedMemory draw old new a n) := by
  induction n with
  | zero => exact h
  | succ n ih =>
    rw [interruptedMemory]
    split
    · exact (ih (by omega)).write (by omega) _
    · exact ih (by omega)

theorem abandonedMemory_memoryInv {i : Instr} {s u : State} (h : exec i s = .next u) (hs : MemoryInv s.mem) :
    MemoryInv (abandonedMemory i s u) := by
  unfold abandonedMemory
  split
  · exact interruptedMemory_memoryInv _ _ _ hs _ (outputRegion_le_addressSpace h ‹_›)
  · exact hs

/-! ## The invariant: the reported codes (R201, R207) -/

theorem exec_result_ne_testFailed {i : Instr} {s t : State} (h : exec i s = .next t) : t.resp.result ≠ .testFailed := by
  cases exec_effect h with
  | initFails hc => rcases initChecks_code hc with rfl | rfl | rfl <;> simp
  | fails hi ha hc => rcases hc with rfl | ⟨rfl, -, -⟩ <;> simp
  | initInstalls => rw [initInstall_resp]; rcases initCode_cases _ with hw | hw <;> rw [hw] <;> simp
  | _ => simp

/-- The number of every code but TestFailed is at most 5 (R201). -/
theorem resultBits_le_five {c : ResultCode} (h : c ≠ .testFailed) : (c.bits.setWidth 32).toNat ≤ 5 := by
  cases c with
  | testFailed => exact absurd rfl h
  | _ => decide

/-! ## The invariant of every run -/

theorem machineInv_intro {s : State} (hm : MemoryInv s.mem) (hc : ContextInv s.ctx)
    (hr : s.resp.result ≠ .testFailed) (hresponses : ∀ r ∈ s.responses, r.r0.toNat ≤ 5) : MachineInv s :=
  ⟨hm.1, hm.2, hc.zero_of_void, hc.complete_of_ready, hc.of_failed, hr, hresponses⟩

theorem MachineInv.memory {s : State} (h : MachineInv s) : MemoryInv s.mem := ⟨h.memWf, h.memInSpace⟩

theorem MachineInv.withHost {s : State} (h : MachineInv s) (rest : List HostAction) :
    MachineInv { s with host := rest } :=
  ⟨h.memWf, h.memInSpace, h.void, h.ready, h.failed, h.result, h.responses⟩

theorem runDescriptor_machineInv {d : Descriptor} {s t : State} (h : runDescriptor d s = .next t) (hs : MachineInv s) :
    MachineInv t := by
  rcases runDescriptor_cases h with ⟨i, -, hexec⟩ | ⟨e, -, rfl⟩
  · exact machineInv_intro (exec_memoryInv hexec hs.memory) (exec_contextInv hexec hs.context)
      (exec_result_ne_testFailed hexec) (by rw [(exec_surroundings hexec).responses]; exact hs.responses)
  · exact machineInv_intro hs.memory hs.context ResultCode.noConfusion hs.responses

theorem MachineInv.respond {s : State} (h : MachineInv s) : MachineInv (respond s) := by
  refine machineInv_intro h.memory h.context h.result fun r hr => ?_
  rw [respond_responses, List.mem_append, List.mem_singleton] at hr
  rcases hr with hr | rfl
  · exact h.responses r hr
  · exact resultBits_le_five h.result

/-- A reset state meets the invariant whatever memory in its form it keeps. -/
theorem hardwareReset_machineInv {s : State} (hm : MemoryInv s.mem) (hresponses : ∀ r ∈ s.responses, r.r0.toNat ≤ 5) :
    MachineInv (hardwareReset s) :=
  machineInv_intro hm contextInv_zero ResultCode.noConfusion hresponses

theorem runAction_machineInv {x : HostAction} {s t : State} (h : runAction x s = .next t) (hs : MachineInv s) :
    MachineInv t := by
  cases x with
  | present d =>
    obtain ⟨u, hu, rfl⟩ := presentCommand_cases h
    exact (runDescriptor_machineInv hu hs).respond
  | write a v =>
    rw [hostWrite_cases h]
    exact machineInv_intro (hs.memory.write a.isLt v) hs.context hs.result hs.responses
  | reset =>
    cases h
    exact hardwareReset_machineInv hs.memory hs.responses
  | resetDuring d =>
    obtain ⟨m, n, rfl, hm⟩ := resetDuringCommand_cases h
    refine hardwareReset_machineInv ?_ hs.responses
    rcases hm with rfl | ⟨i, u, hexec, rfl⟩
    · exact hs.memory
    · exact abandonedMemory_memoryInv hexec hs.memory

/-- Settles O59: each action of the host keeps the invariant, and with none pending the state stays. -/
theorem everyStepKeepsTheInvariant : Obligations.EveryStepKeepsTheInvariant := by
  intro s t hs hstep
  rcases step_cases hstep with rfl | ⟨x, rest, -, hrun⟩
  · exact hs
  · exact runAction_machineInv hrun (hs.withHost rest)

/-! ## An unusable context cannot be observed (R40, U13) -/

/-- Two outcomes that the host cannot tell apart: like next states, or the same refusal. -/
inductive SameOutcome : Host.Outcome State Fault Refusal → Host.Outcome State Fault Refusal → Prop
  | next {s t : State} (h : SameToHost s t) : SameOutcome (.next s) (.next t)
  | refused (r : Refusal) : SameOutcome (.refused r) (.refused r)

theorem SameToHost.refl (s : State) : SameToHost s s := ⟨rfl, rfl, rfl, rfl, rfl, rfl, rfl, fun _ => rfl⟩

theorem SameOutcome.refl (o : Host.Outcome State Fault Refusal) : SameOutcome o o := by
  cases o with
  | next s => exact .next (.refl s)
  | fault r => cases r
  | refused r => exact .refused r

/-- On a READY context nothing may differ. -/
theorem SameToHost.eq_of_ready {s t : State} (h : SameToHost s t) (hl : s.ctx.life = .ready) : s = t := by
  obtain ⟨hresp, hmem, hplatform, hhost, hresponses, hdraws, -, hready⟩ := h
  cases s; cases t
  simp_all

/-- Like states with their contexts replaced by the same one are like. -/
theorem SameToHost.setCtx {s t : State} (h : SameToHost s t) (c : Context) : SameToHost (s.setCtx c) (t.setCtx c) :=
  ⟨h.resp, h.mem, h.platform, h.host, h.responses, h.freeDraws, rfl, fun _ => rfl⟩

theorem SameToHost.setResult {s t : State} (h : SameToHost s t) (c : ResultCode) :
    SameToHost (s.setResult c) (t.setResult c) :=
  ⟨by simp [h.resp], h.mem, h.platform, h.host, h.responses, h.freeDraws, h.life, h.ready⟩

theorem SameToHost.setMem {s t : State} (h : SameToHost s t) (m : Memory) : SameToHost (s.setMem m) (t.setMem m) :=
  ⟨h.resp, rfl, h.platform, h.host, h.responses, h.freeDraws, h.life, h.ready⟩

theorem SameToHost.fail {s t : State} (h : SameToHost s t) : SameToHost (s.setLife .failed) (t.setLife .failed) :=
  ⟨h.resp, h.mem, h.platform, h.host, h.responses, h.freeDraws, rfl, Life.noConfusion⟩

theorem SameToHost.withHost {s t : State} (h : SameToHost s t) (rest : List HostAction) :
    SameToHost { s with host := rest } { t with host := rest } :=
  ⟨h.resp, h.mem, h.platform, rfl, h.responses, h.freeDraws, h.life, h.ready⟩

theorem SameToHost.respond {s t : State} (h : SameToHost s t) : SameToHost (respond s) (respond t) :=
  ⟨h.resp, h.mem, h.platform, h.host, by simp [h.responses, h.resp], h.freeDraws, h.life, h.ready⟩

theorem SameToHost.withMemory {s t : State} (h : SameToHost s t) (m : Memory) (n : Nat) :
    SameToHost { s with mem := m, freeDraws := n } { t with mem := m, freeDraws := n } :=
  ⟨h.resp, rfl, h.platform, h.host, h.responses, rfl, h.life, h.ready⟩

theorem SameToHost.hardwareReset {s t : State} (h : SameToHost s t) : SameToHost (hardwareReset s) (hardwareReset t) :=
  ⟨rfl, h.mem, h.platform, h.host, h.responses, h.freeDraws, rfl, fun _ => rfl⟩

/-- Behind the gate a context that is not READY is not looked at (R182). -/
theorem exec_of_not_ready {i : Instr} {s : State} (hl : s.ctx.life ≠ .ready) (htdn : i ≠ .tdn)
    (hinit : ∀ mode klen key iva cta, i ≠ .init mode klen key iva cta) :
    exec i s = .next (s.setResult .invalidParameter) := by
  have hfinish : finish .invalidParameter s = s.setResult .invalidParameter := by
    simp [finish, endCommand, hl]
  cases i with
  | init => exact absurd rfl (hinit _ _ _ _ _)
  | tdn => exact absurd rfl htdn
  | rstiv => simp [exec, execRstiv, hl, hfinish]
  | rstctr => simp [exec, execRstctr, hl, hfinish]
  | encb => simp [exec, execEncb, bufferCommand, bufferError, hl, hfinish]
  | decb => simp [exec, execDecb, bufferCommand, bufferError, hl, hfinish]
  | enc => simp [exec, execEnc, hl, hfinish]
  | dec => simp [exec, execDec, hl, hfinish]

/-- INIT reads no register of the context. -/
theorem execInit_same (mode klen key iva cta : Nat) {s t : State} (h : SameToHost s t) :
    SameOutcome (execInit mode klen key iva cta s) (execInit mode klen key iva cta t) := by
  unfold execInit
  cases hc : initChecks mode klen key iva cta with
  | error c =>
    have herr : c.isError = true := initChecks_isError hc
    simp only [finishInit, endCommand, herr, Bool.true_or, Bool.and_self, if_true]
    exact .next (h.setResult c).fail
  | ok m =>
    dsimp only
    rw [h.platform]
    cases initRefusal t.platform m klen key iva cta with
    | some r => exact .refused r
    | none =>
      dsimp only
      rw [initInstall_eq, initInstall_eq, h.mem]
      exact .next ((h.setCtx _).setResult _)

theorem exec_same (i : Instr) {s t : State} (h : SameToHost s t) : SameOutcome (exec i s) (exec i t) := by
  by_cases hl : s.ctx.life = .ready
  · rw [h.eq_of_ready hl]; exact .refl _
  have gated (htdn : i ≠ .tdn) (hinit : ∀ mode klen key iva cta, i ≠ .init mode klen key iva cta) :
      SameOutcome (exec i s) (exec i t) := by
    rw [exec_of_not_ready hl htdn hinit, exec_of_not_ready (h.life ▸ hl) htdn hinit]
    exact .next (h.setResult _)
  cases i with
  | init mode klen key iva cta => exact execInit_same mode klen key iva cta h
  | tdn => exact .next ((h.setCtx _).setResult _)
  | _ => exact gated (by simp) (by simp)

theorem runDescriptor_same (d : Descriptor) {s t : State} (h : SameToHost s t) :
    SameOutcome (runDescriptor d s) (runDescriptor d t) := by
  unfold runDescriptor
  cases decode d with
  | ok i => exact exec_same i h
  | error e => exact .next (h.setResult _)

theorem presentCommand_same (d : Descriptor) {s t : State} (h : SameToHost s t) :
    SameOutcome (presentCommand d s) (presentCommand d t) := by
  have hrun := runDescriptor_same d h
  unfold presentCommand
  generalize runDescriptor d s = o, runDescriptor d t = p at hrun
  cases hrun with
  | next hu => exact .next hu.respond
  | refused r => exact .refused r

theorem abandonedMemory_same (i : Instr) {s t u v : State} (h : SameToHost s t) (hu : SameToHost u v) :
    abandonedMemory i s u = abandonedMemory i t v := by
  unfold abandonedMemory
  rw [h.mem, h.freeDraws, hu.mem, hu.resp]

theorem resetDuringCommand_same (d : Descriptor) {s t : State} (h : SameToHost s t) :
    SameOutcome (resetDuringCommand d s) (resetDuringCommand d t) := by
  unfold resetDuringCommand
  cases decode d with
  | error e => exact .next h.hardwareReset
  | ok i =>
    have hrun := exec_same i h
    dsimp only
    generalize exec i s = o, exec i t = p at hrun
    cases hrun with
    | next hu =>
      dsimp only
      rw [abandonedMemory_same i h hu, h.freeDraws]
      exact .next (h.withMemory _ _).hardwareReset
    | refused r => exact .refused r

theorem runAction_same (x : HostAction) {s t : State} (h : SameToHost s t) :
    SameOutcome (runAction x s) (runAction x t) := by
  cases x with
  | present d => exact presentCommand_same d h
  | write a v =>
    show SameOutcome (hostWrite a v s) (hostWrite a v t)
    unfold hostWrite
    rw [h.platform, h.mem]
    split
    · exact .next (h.setMem _)
    · exact .refused _
  | reset => exact .next h.hardwareReset
  | resetDuring d => exact resetDuringCommand_same d h

theorem step_same {s t : State} (h : SameToHost s t) : SameOutcome (step s) (step t) := by
  unfold step
  rw [← h.host]
  cases s.host with
  | nil => exact .next h
  | cons x rest => exact runAction_same x (h.withHost rest)

/-- Settles O60: the steps of two states that the host cannot tell apart are two such outcomes. -/
theorem registersOfAnUnusableContextAreUnobservable : Obligations.RegistersOfAnUnusableContextAreUnobservable := by
  intro s t h
  have hsame := step_same h
  generalize step s = o, step t = p at hsame
  cases hsame with
  | next hst => exact ⟨fun s' hs => by cases hs; exact ⟨_, rfl, hst⟩, fun r hr => nomatch hr⟩
  | refused r => exact ⟨fun s' hs => (nomatch hs), fun r' hr => hr⟩

end Sys2Proof.Machine

/-! PROOFS. Host memory (20_memory.md): blocks in memory, the canonical form, the placements of a buffer command, the
refusals, and the frame of every command. -/

namespace Sys2Proof.Machine

/-! ## Blocks in memory (R64) -/

/-- The value of a block, `L` above `R`. -/
theorem toNat_blockValue (b : Block) : (blockValue b).toNat = b.l.toNat * 2 ^ 32 + b.r.toNat :=
  toNat_append_eq_add b.l b.r

/-- Byte `i` of a block written at `a` is byte `i` of its 64-bit value, counted from the most significant. -/
theorem read_memWriteBlock_eq_extractLsb' (m : Memory) (a : Nat) (b : Block) {i : Nat} (h : i < 8) :
    Memory.read (memWriteBlock m a b) (a + i) = (blockValue b).extractLsb' (8 * (7 - i)) 8 := by
  rw [read_memWriteBlock_inside m a b i h]
  split
  · have hstart : 8 * (7 - i) - 32 = 24 - 8 * i := by omega
    rw [blockValue, BitVec.extractLsb'_append_eq_of_le (by omega), hstart, wordByte]
  · have hstart : 8 * (7 - i) = 24 - 8 * (i - 4) := by omega
    rw [blockValue, BitVec.extractLsb'_append_eq_of_add_le (by omega), hstart, wordByte]

/-- Settles O13: the bytes of a written block are those of its 64-bit value; read-back and frame are laws of memory. -/
theorem blocksInMemoryAreBigEndian : Obligations.BlocksInMemoryAreBigEndian := by
  refine fun m a b => ⟨memReadBlock_memWriteBlock m a b, fun i hi => ?_, fun _ => read_memWriteBlock_outside m b⟩
  rw [read_memWriteBlock_eq_extractLsb' m a b hi, BitVec.extractLsb'_toNat, Nat.shiftRight_eq_div_pow,
    toNat_blockValue]

/-! ## The canonical form (R60) -/

theorem Memory.wf.tail {c : Host.Cell} {m : Memory} (h : Memory.wf (c :: m)) : Memory.wf m :=
  ⟨h.1.of_cons, fun d hd => h.2 d (List.mem_cons_of_mem _ hd)⟩

/-- The first entry of a canonical memory reads as no unlisted byte. -/
theorem read_head_ne_unlisted {k : Nat} {v : Byte} {m : Memory} (h : Memory.wf ((k, v) :: m)) :
    Memory.read ((k, v) :: m) k ≠ Config.unlistedByte := by
  rw [read_cons, if_pos rfl]
  exact h.2 _ List.mem_cons_self

/-- In a canonical memory no address up to the first entry's is listed after it. -/
theorem read_tail_of_le_head {k : Nat} {v : Byte} {m : Memory} (h : Memory.wf ((k, v) :: m)) {a : Nat} (ha : a ≤ k) :
    Memory.read m a = Config.unlistedByte :=
  read_of_unlisted m a fun _ hc => (Nat.lt_of_le_of_lt ha (List.rel_of_pairwise_cons h.1 hc)).ne'

/-- Nothing below the first entry of a canonical memory is listed. -/
theorem head_le_of_read_ne_unlisted {k : Nat} {v : Byte} {m : Memory} (h : Memory.wf ((k, v) :: m)) {a : Nat}
    (ha : Memory.read ((k, v) :: m) a ≠ Config.unlistedByte) : k ≤ a := by
  by_contra hlt
  rw [read_cons, if_neg (by omega), read_tail_of_le_head h (by omega)] at ha
  exact ha rfl

/-- Two canonical memories that read alike are equal: their first entries are the same, and their rests read alike. -/
theorem wf_ext {m m' : Memory} (h : Memory.wf m) (h' : Memory.wf m')
    (hread : ∀ a, Memory.read m a = Memory.read m' a) : m = m' := by
  induction m generalizing m' with
  | nil =>
    cases m' with
    | nil => rfl
    | cons d m' => exact absurd (hread d.1).symm (read_head_ne_unlisted h')
  | cons c m ih =>
    obtain ⟨k, v⟩ := c
    cases m' with
    | nil => exact absurd (hread k) (read_head_ne_unlisted h)
    | cons d m' =>
      obtain ⟨k', v'⟩ := d
      obtain rfl : k = k' := Nat.le_antisymm
        (head_le_of_read_ne_unlisted h (hread k' ▸ read_head_ne_unlisted h'))
        (head_le_of_read_ne_unlisted h' (hread k ▸ read_head_ne_unlisted h))
      obtain rfl : v = v' := by simpa [read_cons] using hread k
      rw [ih h.tail h'.tail fun a => ?_]
      by_cases ha : a ≤ k
      · rw [read_tail_of_le_head h ha, read_tail_of_le_head h' ha]
      · simpa [read_cons, show k ≠ a by omega] using hread a

/-- Settles O14: a write keeps the form, and the form is determined by what is read. -/
theorem memoryFormIsCanonical : Obligations.MemoryFormIsCanonical :=
  ⟨fun _ a v h => write_wf h a v, fun _ _ => wf_ext⟩

/-! ## Placement of a buffer command (R72, R73) -/

/-- The eight bytes of the block read at an address. -/
theorem blockBytes_memReadBlock (m : Memory) (a : Nat) : blockBytes (memReadBlock m a) = memRead m a 8 := by
  simp only [blockBytes, memReadBlock, memRead32BE, unbe32_be32]
  rfl

theorem memRead_add (m : Memory) (a n k : Nat) : memRead m a (n + k) = memRead m a n ++ memRead m (a + n) k := by
  induction n generalizing a with
  | zero => simp [memRead]
  | succ n ih => rw [Nat.add_right_comm, memRead, ih, memRead, List.cons_append, Nat.add_right_comm a 1 n]; rfl

/-- The bytes of a region of whole blocks are those of its blocks. -/
theorem memRead_eq_flatMap_memBlocks (m : Memory) (a n : Nat) :
    memRead m a (8 * n) = (memBlocks m a n).flatMap blockBytes := by
  induction n generalizing a with
  | zero => rfl
  | succ n ih =>
    rw [Nat.mul_succ, Nat.add_comm, memRead_add, memBlocks, List.flatMap_cons, blockBytes_memReadBlock, ih]

/-- Wherever it is allowed to put its output, a buffer command ends in the same context and writes the same bytes. -/
theorem runMode_placement (dir : Dir) {inp out out' len : Nat} (s : State) (h : Apart inp out len)
    (h' : Apart inp out' len) (hlen : s.ctx.mode.isBlockMode = true → len % 8 = 0) :
    (runMode dir inp out len s).ctx = (runMode dir inp out' len s).ctx ∧
    memRead (runMode dir inp out len s).mem out len = memRead (runMode dir inp out' len s).mem out' len := by
  cases hb : s.ctx.mode.isBlockMode
  · rw [runMode_stream _ _ _ _ _ hb, runMode_stream _ _ _ _ _ hb]
    obtain ⟨hctx, hout⟩ := byteLoop_spec (streamByte dir) len inp out s h
    obtain ⟨hctx', hout'⟩ := byteLoop_spec (streamByte dir) len inp out' s h'
    exact ⟨hctx.trans hctx'.symm, hout.trans hout'.symm⟩
  · rw [runMode_block _ _ _ _ _ hb, runMode_block _ _ _ _ _ hb]
    obtain ⟨n, rfl⟩ := Nat.dvd_of_mod_eq_zero (hlen hb)
    rw [Nat.mul_div_cancel_left n (by decide), memRead_eq_flatMap_memBlocks, memRead_eq_flatMap_memBlocks]
    obtain ⟨hctx, hout⟩ := blockLoop_spec (blockUnit s.ctx.mode dir) n inp out s h
    obtain ⟨hctx', hout'⟩ := blockLoop_spec (blockUnit s.ctx.mode dir) n inp out' s h'
    exact ⟨hctx.trans hctx'.symm, congrArg _ (hout.trans hout'.symm)⟩

/-- ENCB and DECB pass the same checks (R141). -/
theorem accepted_bufferInstr (dir : Dir) (inp out len : Nat) (s : State) :
    Accepted (bufferInstr dir inp out len) s ↔ Accepted (.encb inp out len) s := by
  cases dir <;> rfl

/-- An accepted buffer command with valid regions is the run of the mode driver. -/
theorem exec_bufferInstr_accepted {dir : Dir} {inp out len : Nat} {s : State} (h : Accepted (.encb inp out len) s)
    (hr : ValidBuffers s inp out len) :
    exec (bufferInstr dir inp out len) s = .next ((runMode dir inp out len s).setResult .success) :=
  (exec_bufferInstr dir inp out len s).trans (bufferCommand_accepted h hr)

/-- Settles O50: both commands are runs of the mode driver, in two placements. -/
theorem inPlaceEqualsOutOfPlace : Obligations.InPlaceEqualsOutOfPlace := by
  intro s dir inp out len ha hvalid hinPlace
  rw [accepted_bufferInstr] at ha
  have ⟨hlife, hinp, _, hlen⟩ := ha
  have ⟨_, _, hplacement⟩ := hvalid
  exact ⟨_, _, exec_bufferInstr_accepted ha hvalid, exec_bufferInstr_accepted ⟨hlife, hinp, hinp, hlen⟩ hinPlace,
    runMode_placement dir s hplacement.cases (.inl rfl) fun hb => hlen ((isBlockMode_iff _).mp hb)⟩

/-! ## Why a region has no meaning (R63) -/

section
variable {s : State} {base len : Nat}

theorem not_regionFits_of_outside (h : 2 ^ 32 < base + len) : ¬ regionFits base len = true := by
  rw [regionFits_iff]; omega

theorem readRefusal_of_outside (holes : List Hole) (h : 2 ^ 32 < base + len) :
    readRefusal holes base len = some .regionOutsideAddressSpace := by
  rw [readRefusal, if_neg (not_regionFits_of_outside h)]

theorem readRefusal_of_not_readable (h0 : base ≠ 0) (h : base + len ≤ 2 ^ 32) (hr : ¬ ReadableRegion s base len) :
    readRefusal s.platform base len = some .regionNotReadable := by
  have hfits : regionFits base len = true := (regionFits_iff base len).mpr ⟨Nat.pos_of_ne_zero h0, h⟩
  have hplatform : ¬ platformReadable s.platform base len = true := fun hp =>
    hr ((readRefusal_eq_none s base len).mp (by rw [readRefusal, if_pos hfits, if_pos hp]))
  rw [readRefusal, if_pos hfits, if_neg hplatform]

theorem writeRefusal_of_outside (holes : List Hole) (h : 2 ^ 32 < base + len) :
    writeRefusal holes base len = some .regionOutsideAddressSpace := by
  rw [writeRefusal, if_neg (not_regionFits_of_outside h)]

theorem writeRefusal_of_not_writable (h0 : base ≠ 0) (h : base + len ≤ 2 ^ 32) (hw : ¬ WritableRegion s base len) :
    writeRefusal s.platform base len = some .regionNotWritable := by
  have hfits : regionFits base len = true := (regionFits_iff base len).mpr ⟨Nat.pos_of_ne_zero h0, h⟩
  have hplatform : ¬ platformWritable s.platform base len = true := fun hp =>
    hw ((writeRefusal_eq_none s base len).mp (by rw [writeRefusal, if_pos hfits, if_pos hp]))
  rw [writeRefusal, if_pos hfits, if_neg hplatform]

end

/-! ## When a command is refused (R62, R63, R72) -/

/-- Why the regions of a command have no meaning, if they have none; an INIT whose mode tag is out of range has none. -/
def regionRefusal (s : State) : Instr → Option Refusal
  | .init mode klen key iva cta => (modeOfTag mode).bind fun m => initRefusal s.platform m klen key iva cta
  | .rstiv iva => readRefusal s.platform iva 8
  | .rstctr cta => readRefusal s.platform cta 8
  | .encb inp out len => bufferRefusal s.platform inp out len
  | .decb inp out len => bufferRefusal s.platform inp out len
  | .enc _ _ => none
  | .dec _ _ => none
  | .tdn => none

@[simp] theorem modeOfTag_tag_toNat (m : Mode) : modeOfTag m.tag.toNat = some m := by cases m <;> rfl

/-- An accepted INIT names a mode. -/
theorem exists_mode_of_accepted_init {mode klen key iva cta : Nat} {s : State}
    (h : Accepted (.init mode klen key iva cta) s) : ∃ m : Mode, mode = m.tag.toNat := by
  obtain ⟨-, -, -, hmode, -⟩ := h
  obtain rfl | rfl | rfl | rfl | rfl : mode = 0 ∨ mode = 1 ∨ mode = 2 ∨ mode = 3 ∨ mode = 4 := by omega
  exacts [⟨.ecb, rfl⟩, ⟨.cbc, rfl⟩, ⟨.cfb, rfl⟩, ⟨.ofb, rfl⟩, ⟨.ctr, rfl⟩]

/-- `regionRefusal` finds a reason exactly when the regions have no meaning. -/
theorem regionRefusal_eq_none {i : Instr} {s : State} (h : Accepted i s) :
    regionRefusal s i = none ↔ ValidRegions i s := by
  cases i with
  | init mode klen key iva cta =>
    obtain ⟨m, rfl⟩ := exists_mode_of_accepted_init h
    rw [← initRefusal_eq_none, regionRefusal, modeOfTag_tag_toNat, Option.bind_some]
  | rstiv iva => exact readRefusal_eq_none s iva 8
  | rstctr cta => exact readRefusal_eq_none s cta 8
  | encb inp out len => exact bufferRefusal_eq_none s inp out len
  | decb inp out len => exact bufferRefusal_eq_none s inp out len
  | enc => exact iff_of_true rfl trivial
  | dec => exact iff_of_true rfl trivial
  | tdn => exact iff_of_true rfl trivial

theorem execInit_eq_refused {mode klen key iva cta : Nat} {s : State} {r : Refusal} :
    execInit mode klen key iva cta s = .refused r ↔
      Accepted (.init mode klen key iva cta) s ∧ regionRefusal s (.init mode klen key iva cta) = some r := by
  have hok := fun m => initChecks_eq_ok mode klen key iva cta m s
  unfold execInit
  cases hc : initChecks mode klen key iva cta with
  | error c =>
    have hrejected : ¬ Accepted (.init mode klen key iva cta) s := fun ha => by
      obtain ⟨m, hm⟩ := exists_mode_of_accepted_init ha
      cases hc.symm.trans ((hok m).mpr ⟨ha, hm⟩)
    exact iff_of_false nofun fun h => hrejected h.1
  | ok m =>
    obtain ⟨ha, rfl⟩ := (hok m).mp hc
    rw [and_iff_right ha, regionRefusal, modeOfTag_tag_toNat, Option.bind_some]
    dsimp only
    cases initRefusal s.platform m klen key iva cta <;> simp

/-- RSTIV's checks are those of `Accepted` (R190). -/
theorem rstivChecks_iff (iva : Nat) (s : State) :
    (decide (s.ctx.life ≠ .ready) || isNull iva || !s.ctx.mode.usesIv) = true ↔ ¬ Accepted (.rstiv iva) s := by
  unfold Accepted isNull Config.null
  cases s.ctx.mode <;> simp [Mode.usesIv, imp_iff_not_or]

/-- RSTCTR's checks are those of `Accepted` (R193). -/
theorem rstctrChecks_iff (cta : Nat) (s : State) :
    (decide (s.ctx.life ≠ .ready) || isNull cta || !s.ctx.mode.usesCtr) = true ↔ ¬ Accepted (.rstctr cta) s := by
  unfold Accepted isNull Config.null
  cases s.ctx.mode <;> simp [Mode.usesCtr, imp_iff_not_or]

theorem execRstiv_eq_refused {iva : Nat} {s : State} {r : Refusal} :
    execRstiv iva s = .refused r ↔ Accepted (.rstiv iva) s ∧ readRefusal s.platform iva 8 = some r := by
  unfold execRstiv
  split <;> rename_i hchecks <;> rw [rstivChecks_iff] at hchecks
  · exact iff_of_false nofun fun h => hchecks h.1
  · rw [and_iff_right (not_not.mp hchecks)]
    cases readRefusal s.platform iva 8 <;> simp

theorem execRstctr_eq_refused {cta : Nat} {s : State} {r : Refusal} :
    execRstctr cta s = .refused r ↔ Accepted (.rstctr cta) s ∧ readRefusal s.platform cta 8 = some r := by
  unfold execRstctr
  split <;> rename_i hchecks <;> rw [rstctrChecks_iff] at hchecks
  · exact iff_of_false nofun fun h => hchecks h.1
  · rw [and_iff_right (not_not.mp hchecks)]
    cases readRefusal s.platform cta 8 <;> simp

theorem bufferCommand_eq_refused {dir : Dir} {inp out len : Nat} {s : State} {r : Refusal} :
    bufferCommand dir inp out len s = .refused r ↔
      Accepted (.encb inp out len) s ∧ bufferRefusal s.platform inp out len = some r := by
  rw [← bufferError_eq_none]
  unfold bufferCommand
  cases bufferError inp out len s <;> cases bufferRefusal s.platform inp out len <;> simp

/-- A command is refused exactly when it is accepted and its regions have no meaning, and for the first reason. -/
theorem exec_eq_refused {i : Instr} {s : State} {r : Refusal} :
    exec i s = .refused r ↔ Accepted i s ∧ regionRefusal s i = some r := by
  cases i with
  | init mode klen key iva cta => exact execInit_eq_refused
  | rstiv iva => exact execRstiv_eq_refused
  | rstctr cta => exact execRstctr_eq_refused
  | encb inp out len => exact bufferCommand_eq_refused
  | decb inp out len => exact bufferCommand_eq_refused
  | enc l r =>
    refine iff_of_false ?_ fun h => nomatch h.2
    rw [exec, execEnc]
    split <;> exact nofun
  | dec l r =>
    refine iff_of_false ?_ fun h => nomatch h.2
    rw [exec, execDec]
    split <;> exact nofun
  | tdn => exact iff_of_false nofun fun h => nomatch h.2

/-- Settles O53: the refusals are those of `exec_eq_refused`, and there is no fault. -/
theorem commandsStopOnlyOnMeaninglessRegions : Obligations.CommandsStopOnlyOnMeaninglessRegions := by
  refine fun i s => ⟨fun ⟨ha, hr⟩ => ?_, fun hmeaning => ?_⟩
  · rw [← regionRefusal_eq_none ha] at hr
    obtain ⟨r, hreason⟩ := Option.ne_none_iff_exists'.mp hr
    exact ⟨r, exec_eq_refused.mpr ⟨ha, hreason⟩⟩
  · cases h : exec i s with
    | next t => exact ⟨t, rfl⟩
    | fault f => cases f
    | refused r =>
      obtain ⟨ha, hreason⟩ := exec_eq_refused.mp h
      refine absurd ⟨ha, fun hr => ?_⟩ hmeaning
      cases hreason.symm.trans ((regionRefusal_eq_none ha).mpr hr)

/-! ## Refusals by name (R63, R72) -/

section
variable {s : State} {inp out len : Nat} {r : Refusal}

theorem bufferRefusal_of_input {holes : List Hole} (h : readRefusal holes inp len = some r) :
    bufferRefusal holes inp out len = some r := by
  rw [bufferRefusal, h, Option.some_or]

theorem bufferRefusal_of_output (hi : ReadableRegion s inp len) (h : writeRefusal s.platform out len = some r) :
    bufferRefusal s.platform inp out len = some r := by
  rw [bufferRefusal, (readRefusal_eq_none s inp len).mpr hi, Option.none_or, h, Option.some_or]

theorem bufferRefusal_of_placement (hi : ReadableRegion s inp len) (ho : WritableRegion s out len)
    (hp : ¬ DefinedPlacement inp out len) : bufferRefusal s.platform inp out len = some .partialOverlap := by
  rw [← placementOk_iff] at hp
  rw [bufferRefusal, (readRefusal_eq_none s inp len).mpr hi, (writeRefusal_eq_none s out len).mpr ho, Option.none_or,
    Option.none_or, if_neg hp]

end

theorem regionRefusal_bufferInstr (s : State) (dir : Dir) (inp out len : Nat) :
    regionRefusal s (bufferInstr dir inp out len) = bufferRefusal s.platform inp out len := by
  cases dir <;> rfl

section
variable {mode klen key iva cta : Nat} {s : State}

/-- INIT reads the key, then the IV or the counter if its mode uses one. -/
theorem regionRefusal_init_of_second {a : Nat} (s : State)
    (h : (mode = 4 ∧ a = cta) ∨ ((mode = 1 ∨ mode = 2 ∨ mode = 3) ∧ a = iva)) :
    regionRefusal s (.init mode klen key iva cta) =
      (readRefusal s.platform key klen).or (readRefusal s.platform a 8) := by
  obtain ⟨rfl, rfl⟩ | ⟨rfl | rfl | rfl, rfl⟩ := h
  · rfl
  all_goals exact congrArg (Option.or (readRefusal s.platform key klen)) Option.or_none

theorem regionRefusal_init_of_key {r : Refusal} (ha : Accepted (.init mode klen key iva cta) s)
    (h : readRefusal s.platform key klen = some r) : regionRefusal s (.init mode klen key iva cta) = some r := by
  obtain ⟨m, rfl⟩ := exists_mode_of_accepted_init ha
  rw [regionRefusal, modeOfTag_tag_toNat, Option.bind_some, initRefusal, h, Option.some_or]

/-- The second region that an accepted INIT reads is given. -/
theorem secondRegion_ne_null {a : Nat} (ha : Accepted (.init mode klen key iva cta) s)
    (h : (mode = 4 ∧ a = cta) ∨ ((mode = 1 ∨ mode = 2 ∨ mode = 3) ∧ a = iva)) : a ≠ 0 := by
  obtain ⟨-, -, -, -, hiv, hctr⟩ := ha
  obtain ⟨hmode, rfl⟩ | ⟨hmode, rfl⟩ := h
  · exact hctr.mpr hmode
  · exact hiv.mpr hmode

end

/-- Settles O54: for each command the first region that is refused gives the reason. -/
theorem refusalsByName : Obligations.RefusalsByName := by
  refine ⟨fun s dir inp out len ha => ?_, fun s a i hi ha => ?_, fun s mode klen key iva cta ha => ?_⟩
  · have refused {r : Refusal} (h : bufferRefusal s.platform inp out len = some r) :
        exec (bufferInstr dir inp out len) s = .refused r :=
      exec_eq_refused.mpr ⟨ha, (regionRefusal_bufferInstr s dir inp out len).trans h⟩
    obtain ⟨-, hinp, hout, -⟩ := (accepted_bufferInstr dir inp out len s).mp ha
    exact ⟨fun h => refused (bufferRefusal_of_input (readRefusal_of_outside _ h)),
      fun h hr => refused (bufferRefusal_of_input (readRefusal_of_not_readable hinp h hr)),
      fun hr h => refused (bufferRefusal_of_output hr (writeRefusal_of_outside _ h)),
      fun hr h hw => refused (bufferRefusal_of_output hr (writeRefusal_of_not_writable hout h hw)),
      fun hr hw hp => refused (bufferRefusal_of_placement hr hw hp)⟩
  · have refused {r : Refusal} (h : readRefusal s.platform a 8 = some r) : exec i s = .refused r := by
      rcases hi with rfl | rfl <;> exact exec_eq_refused.mpr ⟨ha, h⟩
    have hnull : a ≠ 0 := by rcases hi with rfl | rfl <;> exact ha.2.1
    exact ⟨fun h => refused (readRefusal_of_outside _ h), fun h hr => refused (readRefusal_of_not_readable hnull h hr)⟩
  · have keyRefused {r : Refusal} (h : readRefusal s.platform key klen = some r) :
        exec (.init mode klen key iva cta) s = .refused r :=
      exec_eq_refused.mpr ⟨ha, regionRefusal_init_of_key ha h⟩
    refine ⟨fun h => keyRefused (readRefusal_of_outside _ h),
      fun h hr => keyRefused (readRefusal_of_not_readable ha.1 h hr), fun a hsecond hkey => ?_⟩
    have secondRefused {r : Refusal} (h : readRefusal s.platform a 8 = some r) :
        exec (.init mode klen key iva cta) s = .refused r := by
      refine exec_eq_refused.mpr ⟨ha, ?_⟩
      rw [regionRefusal_init_of_second s hsecond, (readRefusal_eq_none s key klen).mpr hkey, Option.none_or, h]
    exact ⟨fun h => secondRefused (readRefusal_of_outside _ h),
      fun h hr => secondRefused (readRefusal_of_not_readable (secondRegion_ne_null ha hsecond) h hr)⟩

/-! ## The frame of every command (R62, R180) -/

/-- Host memory is written by a buffer command that completes, and by nothing else. -/
theorem exec_mem {i : Instr} {s t : State} (h : exec i s = .next t) :
    t.mem = s.mem ∨ ∃ dir inp out len, i = bufferInstr dir inp out len ∧
      t.mem = (runMode dir inp out len s).mem ∧ t.resp.result = .success := by
  cases exec_effect h with
  | bufferRun dir inp out len => exact .inr ⟨dir, inp, out, len, rfl, rfl, rfl⟩
  | _ => left; simp

/-- Settles O57: memory by `exec_mem`, the rest by `exec_surroundings`. -/
theorem onlyTheOutputRegionChanges : Obligations.OnlyTheOutputRegionChanges := by
  intro i s t h
  obtain ⟨hplatform, hhost, hresponses, hdraws⟩ := exec_surroundings h
  refine ⟨fun a ha => ?_, fun hfail => ?_, hplatform, hhost, hresponses, hdraws⟩
  · rcases exec_mem h with hmem | ⟨dir, inp, out, len, rfl, hmem, -⟩ <;> rw [hmem]
    rw [outputRegion_bufferInstr] at ha
    exact runMode_read_outside dir inp out len s a ha
  · rcases exec_mem h with hmem | ⟨-, -, -, -, -, -, hsuccess⟩
    · exact hmem
    · exact absurd hsuccess hfail

end Sys2Proof.Machine

/-! PROOFS. The encoding of commands (30_encoding.md): what mask and match select, said field by field, and that the
decoder reads from a descriptor the command of the row that selects it. -/

namespace Sys2Proof.Machine

/-! ## The fields of `W0` (R81) -/

theorem be32_inj {a0 a1 a2 a3 b0 b1 b2 b3 : Byte} :
    be32 a0 a1 a2 a3 = be32 b0 b1 b2 b3 ↔ a0 = b0 ∧ a1 = b1 ∧ a2 = b2 ∧ a3 = b3 := by
  constructor
  · intro h
    simpa using congrArg unbe32 h
  · rintro ⟨rfl, rfl, rfl, rfl⟩
    rfl

/-- The fields of `W0` are its four bytes. -/
theorem be32_fields (d : Descriptor) : be32 d.opc d.modeField d.klenField d.rsv = d.w0 := be32_wordByte d.w0

theorem encodeW0_eq_be32 (opc mode klen : Nat) :
    encodeW0 opc mode klen = be32 (BitVec.ofNat 8 opc) (BitVec.ofNat 8 mode) (BitVec.ofNat 8 klen) 0 :=
  (be32_eq_append ..).symm

theorem w0_eq_encodeW0_iff {d : Descriptor} {opc mode klen : Nat} :
    d.w0 = encodeW0 opc mode klen ↔
      d.opc = BitVec.ofNat 8 opc ∧ d.modeField = BitVec.ofNat 8 mode ∧ d.klenField = BitVec.ofNat 8 klen ∧ d.rsv = 0 := by
  rw [← be32_fields, encodeW0_eq_be32, be32_inj]

@[simp] theorem noKeyFields_iff (d : Descriptor) : d.noKeyFields = true ↔ d.modeField = 0 ∧ d.klenField = 0 := by
  simp [Descriptor.noKeyFields]

/-! ## What mask and match select (R82, R86) -/

/-- `OPC` of a command (R82), none above 8. -/
def opcode : Instr → Fin 9
  | .init _ _ _ _ _ => 1
  | .rstiv _ => 2
  | .rstctr _ => 3
  | .encb _ _ _ => 4
  | .decb _ _ _ => 5
  | .enc _ _ => 6
  | .dec _ _ => 7
  | .tdn => 8

/-- The fields and words that R82 requires to be zero in a descriptor of the command's kind are so. -/
def ZeroFields (d : Descriptor) : Instr → Prop
  | .init _ _ _ _ _ => True
  | .rstiv _ | .rstctr _ => d.noKeyFields = true ∧ d.w2 = 0 ∧ d.w3 = 0
  | .encb _ _ _ | .decb _ _ _ => d.noKeyFields = true
  | .enc _ _ | .dec _ _ => d.noKeyFields = true ∧ d.w3 = 0
  | .tdn => d.noKeyFields = true ∧ d.w1 = 0 ∧ d.w2 = 0 ∧ d.w3 = 0

@[simp] theorem word_and_ones (w : Word) : w &&& 0xFFFFFFFF#32 = w := BitVec.and_allOnes

/-- INIT's mask clears `MODE` and `KLEN`, and no other bit of `W0`. -/
theorem be32_and_initMask (b0 b1 b2 b3 : Byte) : be32 b0 b1 b2 b3 &&& 0xFF0000FF = be32 b0 0 0 b3 := by
  have hmask : (0xFF0000FF : Word) = 0xFF#8 ++ 0#8 ++ 0#8 ++ 0xFF#8 := rfl
  have hones (b : Byte) : b &&& 0xFF#8 = b := BitVec.and_allOnes
  rw [hmask, be32_eq_append, be32_eq_append, BitVec.and_append, BitVec.and_append, BitVec.and_append, hones, hones]
  simp

theorem opc_eq_iff (d : Descriptor) (k : Fin 9) : d.opc = BitVec.ofNat 8 k ↔ d.opc.toNat = k := by
  rw [← BitVec.toNat_inj, BitVec.toNat_ofNat, Nat.mod_eq_of_lt (by omega)]

/-- INIT's mask and match fix `OPC` and `RSV`. -/
theorem w0_initMask_iff (d : Descriptor) : d.w0 &&& 0xFF0000FF = 0x01000000 ↔ d.rsv = 0 ∧ d.opc.toNat = 1 := by
  have hvalue : (0x01000000 : Word) = be32 1 0 0 0 := rfl
  have hopc : d.opc = 1 ↔ d.opc.toNat = 1 := opc_eq_iff d 1
  rw [← be32_fields, be32_and_initMask, hvalue, be32_inj, hopc]
  simp [and_comm]

/-- Every other mask and match fix the whole of `W0`, and require the masked bits of the operand words to be zero. -/
theorem wholeRow_selectedBy_iff (d : Descriptor) (k : Fin 9) (m1 m2 m3 : Word) :
    (OpcodeRow.mk ⟨0xFFFFFFFF, m1, m2, m3⟩ ⟨BitVec.ofNat 32 (k * 2 ^ 24), 0, 0, 0⟩).selectedBy d ↔
      d.rsv = 0 ∧ d.opc.toNat = k ∧ d.noKeyFields = true ∧ d.w1 &&& m1 = 0 ∧ d.w2 &&& m2 = 0 ∧ d.w3 &&& m3 = 0 := by
  have hvalue : BitVec.ofNat 32 (k * 2 ^ 24) = encodeW0 k 0 0 :=
    (Laws.TableRow.encodeW0_whole k).symm.trans (word_and_ones _)
  have hmask : d.w0 &&& 0xFFFFFFFF = d.w0 := word_and_ones d.w0
  rw [OpcodeRow.selectedBy, hmask, hvalue, w0_eq_encodeW0_iff, opc_eq_iff, noKeyFields_iff]
  tauto

/-- What a row selects, field by field. -/
theorem selectedBy_iff (i : Instr) (d : Descriptor) :
    (opcodeRow i).selectedBy d ↔ d.rsv = 0 ∧ d.opc.toNat = opcode i ∧ ZeroFields d i := by
  have hrow := wholeRow_selectedBy_iff d
  cases i with
  | init => simp only [OpcodeRow.selectedBy, opcodeRow, w0_initMask_iff]; simp [opcode, ZeroFields]
  | rstiv => exact (hrow 2 _ _ _).trans (by simp [opcode, ZeroFields])
  | rstctr => exact (hrow 3 _ _ _).trans (by simp [opcode, ZeroFields])
  | encb => exact (hrow 4 _ _ _).trans (by simp [opcode, ZeroFields])
  | decb => exact (hrow 5 _ _ _).trans (by simp [opcode, ZeroFields])
  | enc => exact (hrow 6 _ _ _).trans (by simp [opcode, ZeroFields])
  | dec => exact (hrow 7 _ _ _).trans (by simp [opcode, ZeroFields])
  | tdn => exact (hrow 8 _ _ _).trans (by simp [opcode, ZeroFields])

/-! ## The decoder reads the command of the row that selects (R83, R85) -/

/-- The command of the same kind with the operands that the descriptor carries (R83). -/
def readOperands (d : Descriptor) : Instr → Instr
  | .init _ _ _ _ _ => .init d.modeField.toNat d.klenField.toNat d.w1.toNat d.w2.toNat d.w3.toNat
  | .rstiv _ => .rstiv d.w1.toNat
  | .rstctr _ => .rstctr d.w1.toNat
  | .encb _ _ _ => .encb d.w1.toNat d.w2.toNat d.w3.toNat
  | .decb _ _ _ => .decb d.w1.toNat d.w2.toNat d.w3.toNat
  | .enc _ _ => .enc d.w1 d.w2
  | .dec _ _ => .dec d.w1 d.w2
  | .tdn => .tdn

@[simp] theorem opcodeRow_readOperands (d : Descriptor) (i : Instr) : opcodeRow (readOperands d i) = opcodeRow i := by
  cases i <;> rfl

@[simp] theorem acceptIf_eq_ok {zeros : Bool} {i j : Instr} : acceptIf zeros i = .ok j ↔ zeros = true ∧ i = j := by
  cases zeros <;> simp [acceptIf]

theorem decode_of_selectedBy {d : Descriptor} {i : Instr} (h : (opcodeRow i).selectedBy d) :
    decode d = .ok (readOperands d i) := by
  obtain ⟨hrsv, hopc, hzero⟩ := (selectedBy_iff i d).mp h
  have hdecode : decode d = decodeOpcode d := if_pos (beq_iff_eq.mpr hrsv)
  rw [hdecode, decodeOpcode, hopc]
  cases i with
  | init => rfl
  | _ => simpa [opcode, readOperands, ZeroFields, and_assoc] using hzero

theorem selectedBy_of_decode {d : Descriptor} {i : Instr} (h : decode d = .ok i) :
    (opcodeRow i).selectedBy d ∧ readOperands d i = i := by
  rw [selectedBy_iff]
  unfold decode at h
  split at h
  case isFalse => cases h
  case isTrue hrsv =>
    have hrsv : d.rsv = 0 := beq_iff_eq.mp hrsv
    unfold decodeOpcode at h
    split at h
    case h_1 hopc => cases h; exact ⟨⟨hrsv, hopc, trivial⟩, rfl⟩
    case h_9 => cases h
    all_goals
      obtain ⟨hzero, rfl⟩ := acceptIf_eq_ok.mp h
      refine ⟨⟨hrsv, ‹_›, ?_⟩, rfl⟩
      simpa [ZeroFields, and_assoc] using hzero

/-- The decoder, said by mask and match. -/
theorem decode_eq_ok_iff {d : Descriptor} {i : Instr} :
    decode d = .ok i ↔ (opcodeRow i).selectedBy d ∧ readOperands d i = i :=
  ⟨selectedBy_of_decode, fun ⟨hsel, hread⟩ => hread ▸ decode_of_selectedBy hsel⟩

/-- The decoder is total: what it rejects is what no row selects (R90). -/
theorem decode_error_iff (d : Descriptor) :
    (∃ e, decode d = .error e) ↔ ∀ i : Instr, ¬ (opcodeRow i).selectedBy d := by
  constructor
  · rintro ⟨e, he⟩ i hsel
    cases he.symm.trans (decode_of_selectedBy hsel)
  · intro hnone
    cases hd : decode d with
    | ok i => exact absurd (selectedBy_of_decode hd).1 (hnone i)
    | error e => exact ⟨e, rfl⟩

/-- The match sets of the rows are disjoint (R85). -/
theorem opcodeRow_eq_of_selectedBy {i j : Instr} {d : Descriptor} (hi : (opcodeRow i).selectedBy d)
    (hj : (opcodeRow j).selectedBy d) : opcodeRow i = opcodeRow j := by
  have hread : readOperands d i = readOperands d j :=
    Except.ok.inj ((decode_of_selectedBy hi).symm.trans (decode_of_selectedBy hj))
  rw [← opcodeRow_readOperands d i, hread, opcodeRow_readOperands]

/-! ## Encoder and decoder are inverse (R82, R83) -/

/-- The descriptor of a command is selected by the command's row. -/
theorem selectedBy_encode {i : Instr} (h : i.wellFormed = true) : (opcodeRow i).selectedBy (encode i) := by
  cases i with
  | init mode klen key iva cta => exact Laws.TableRow.init mode klen key iva cta h
  | rstiv iva => exact Laws.TableRow.rstiv iva h
  | rstctr cta => exact Laws.TableRow.rstctr cta h
  | encb inp out len => exact Laws.TableRow.encb inp out len h
  | decb inp out len => exact Laws.TableRow.decb inp out len h
  | enc l r => exact Laws.TableRow.enc l r h
  | dec l r => exact Laws.TableRow.dec l r h
  | tdn => exact Laws.TableRow.tdn h

@[simp] theorem fitsByteField_iff (n : Nat) : fitsByteField n = true ↔ n < 256 := by simp [fitsByteField]

@[simp] theorem fitsWordField_iff (n : Nat) : fitsWordField n = true ↔ n < 2 ^ 32 := by
  simp [fitsWordField, Config.addressSpace, Config.addressWidth]

/-- An operand that fits its field is read back from it. -/
theorem readOperands_encode {i : Instr} (h : i.wellFormed = true) : readOperands (encode i) i = i := by
  cases i with
  | init mode klen key iva cta =>
    obtain ⟨-, hmode, hklen, -⟩ := w0_eq_encodeW0_iff.mp (rfl : (encode (.init mode klen key iva cta)).w0 = _)
    simp only [readOperands, hmode, hklen]
    simp_all [Instr.wellFormed, encode, Nat.mod_eq_of_lt]
  | enc | dec | tdn => rfl
  | _ => simp_all [Instr.wellFormed, readOperands, encode, Nat.mod_eq_of_lt]

/-- Settles O1: the command's row selects its descriptor, and the operands are read back. -/
theorem decodeOfEncode : Obligations.DecodeOfEncode := fun _ h =>
  decode_eq_ok_iff.mpr ⟨selectedBy_encode h, readOperands_encode h⟩

theorem wellFormed_readOperands (d : Descriptor) (i : Instr) : (readOperands d i).wellFormed = true := by
  have hbyte (b : Byte) : b.toNat < 256 := b.isLt
  have hword (w : Word) : w.toNat < 2 ^ 32 := w.isLt
  cases i <;> simp only [readOperands, Instr.wellFormed, Bool.and_eq_true, fitsByteField_iff, fitsWordField_iff, hbyte,
    hword, and_self]

theorem descriptor_eq_iff {d e : Descriptor} :
    d = e ↔ d.w0 = e.w0 ∧ d.w1 = e.w1 ∧ d.w2 = e.w2 ∧ d.w3 = e.w3 := by
  cases d; cases e; simp

/-- A row fixes every bit of a descriptor that it selects but those of the operands (R85). -/
theorem encode_readOperands {d : Descriptor} {i : Instr} (h : (opcodeRow i).selectedBy d) :
    encode (readOperands d i) = d := by
  obtain ⟨hrsv, hopc, hzero⟩ := (selectedBy_iff i d).mp h
  have hw0 : encodeW0 (opcode i) d.modeField.toNat d.klenField.toNat = d.w0 := by
    refine (w0_eq_encodeW0_iff.mpr ⟨(opc_eq_iff d _).mpr hopc, ?_, ?_, hrsv⟩).symm <;> simp
  rw [descriptor_eq_iff]
  cases i with
  | init => exact ⟨hw0, by simp [readOperands, encode]⟩
  | _ => simp_all [readOperands, encode, ZeroFields, opcode]

/-- Settles O2: what decodes is selected by its command's row, so no bit of it is dropped. -/
theorem encodeOfDecode : Obligations.EncodeOfDecode := by
  intro d i h
  obtain ⟨hsel, hread⟩ := selectedBy_of_decode h
  exact hread ▸ ⟨wellFormed_readOperands d i, encode_readOperands hsel⟩

/-- Settles O3: a selected descriptor decodes to a command of the selecting row, and decoding is a function. -/
theorem maskAndMatchSelectTheCommand : Obligations.MaskAndMatchSelectTheCommand := by
  refine ⟨fun i d => ⟨?_, fun h => ⟨_, decode_of_selectedBy h, opcodeRow_readOperands d i⟩⟩, decode_error_iff,
    fun _ _ _ => opcodeRow_eq_of_selectedBy⟩
  rintro ⟨j, hj, hrow⟩
  exact hrow ▸ (selectedBy_of_decode hj).1

/-! ## Illegal descriptors (R84, R90) -/

/-- A descriptor that does not decode has the whole effect of R90. -/
theorem runDescriptor_of_decode_error {d : Descriptor} {e : IllegalDescriptor} (h : decode d = .error e) (s : State) :
    runDescriptor d s = .next (illegalDescriptor s) := by
  rw [runDescriptor, h]

/-- A command exists for each of the opcodes 1 to 8, so R90 lists what `selectedBy_iff` excludes. -/
theorem no_row_selects_iff (d : Descriptor) :
    (∀ i : Instr, ¬ (opcodeRow i).selectedBy d) ↔
      (d.opc.toNat = 0 ∨ 9 ≤ d.opc.toNat) ∨ d.rsv ≠ 0 ∨
      (2 ≤ d.opc.toNat ∧ (d.modeField ≠ 0 ∨ d.klenField ≠ 0)) ∨
      ((d.opc.toNat = 2 ∨ d.opc.toNat = 3) ∧ (d.w2 ≠ 0 ∨ d.w3 ≠ 0)) ∨
      ((d.opc.toNat = 6 ∨ d.opc.toNat = 7) ∧ d.w3 ≠ 0) ∨
      (d.opc.toNat = 8 ∧ (d.w1 ≠ 0 ∨ d.w2 ≠ 0 ∨ d.w3 ≠ 0)) := by
  simp only [selectedBy_iff]
  constructor
  · intro hnone
    by_contra hlegal
    push Not at hlegal
    obtain ⟨⟨h0, h9⟩, hrsv, hkey, hreseed, hblock, htdn⟩ := hlegal
    have hnoKey (h : 2 ≤ d.opc.toNat) : d.noKeyFields = true := (noKeyFields_iff d).mpr (hkey h)
    have hopc : d.opc.toNat = 1 ∨ d.opc.toNat = 2 ∨ d.opc.toNat = 3 ∨ d.opc.toNat = 4 ∨ d.opc.toNat = 5 ∨
        d.opc.toNat = 6 ∨ d.opc.toNat = 7 ∨ d.opc.toNat = 8 := by omega
    rcases hopc with h | h | h | h | h | h | h | h
    · exact hnone (.init 0 0 0 0 0) ⟨hrsv, h, trivial⟩
    · exact hnone (.rstiv 0) ⟨hrsv, h, hnoKey (by omega), hreseed (.inl h)⟩
    · exact hnone (.rstctr 0) ⟨hrsv, h, hnoKey (by omega), hreseed (.inr h)⟩
    · exact hnone (.encb 0 0 0) ⟨hrsv, h, hnoKey (by omega)⟩
    · exact hnone (.decb 0 0 0) ⟨hrsv, h, hnoKey (by omega)⟩
    · exact hnone (.enc 0 0) ⟨hrsv, h, hnoKey (by omega), hblock (.inl h)⟩
    · exact hnone (.dec 0 0) ⟨hrsv, h, hnoKey (by omega), hblock (.inr h)⟩
    · exact hnone .tdn ⟨hrsv, h, hnoKey (by omega), htdn h⟩
  · rintro hillegal i ⟨hrsv, hopc, hzero⟩
    cases i <;> simp_all [opcode, ZeroFields]

/-- Settles O4: R90's list is `no_row_selects_iff`, and what no row selects does not decode. -/
theorem illegalDescriptorSetsResultOnly : Obligations.IllegalDescriptorSetsResultOnly := by
  refine ⟨no_row_selects_iff, fun s d rest hhost hnone => ?_⟩
  obtain ⟨e, he⟩ := (decode_error_iff d).mpr hnone
  exact (step_of_host_eq_cons hhost).trans (presentCommand_of_next (runDescriptor_of_decode_error he _))

/-! ## Descriptors as bytes and as numbers (R80) -/

@[simp] theorem ofBytes_toBytes (d : Descriptor) : Descriptor.ofBytes d.toBytes = some d := by
  simp [Descriptor.toBytes, unbe32, Descriptor.ofBytes]

theorem decode_of_decodeTableWord {nbits w : Nat} {i : Instr} (h : decodeTableWord nbits w = some i) :
    decode (tableDescriptor nbits w) = .ok i := by
  rw [decodeTableWord, decodeBytes, ofBytes_toBytes] at h
  split at h <;> cases h
  assumption

/-- Settles O6: the bytes of the table word give its descriptor back, which is the one that the host presents. -/
theorem tableWordRunsAsDecoded : Obligations.TableWordRunsAsDecoded := by
  intro s nbits w i t hdecode hexec
  exact (presentedDescriptorRunsItsCommand (s.withFetchWord nbits w) _ s.host i rfl
    (decode_of_decodeTableWord hdecode)).1 t hexec

/-- Settles O7: each encoding is computed. -/
theorem workedEncodings : Obligations.WorkedEncodings :=
  ⟨by decide, by decide, by decide, by decide, by decide, by decide, ⟨_, rfl⟩, ⟨_, rfl⟩⟩

end Sys2Proof.Machine

/-! PROOFS. The round and the block (40_round_and_block.md): the round function in numbers, the rounds as a recurrence,
the inverse law of a Feistel network of any length, and the commands ENC and DEC. -/

namespace Sys2Proof.Machine

/-! ## The round function (R101) -/

/-- Byte `i` of a word as the shift and mask of R101 select it. -/
theorem toNat_wordByte (w : Word) (i : Nat) : (wordByte w i).toNat = w.toNat / 2 ^ (24 - 8 * i) % 256 := by
  rw [wordByte, BitVec.extractLsb'_toNat, Nat.shiftRight_eq_div_pow]

/-- An S-box read at the index that the byte denotes. -/
theorem sboxEntry_of_val_eq (s : Vector (Vector Word 256) 4) (j : Fin 4) {b : Byte} {a : Fin 256}
    (h : a.val = b.toNat) : sboxEntry s j b = s[j][a] := by
  obtain rfl : a = ⟨b.toNat, b.isLt⟩ := Fin.ext h
  rfl

/-- Settles O15: each byte of `x` is the index that the statement names, and the worked value is computed. -/
theorem roundFunctionValue : Obligations.RoundFunctionValue := by
  refine ⟨fun s x a b c d ha hb hc hd => ?_, by decide +kernel⟩
  have ha' : a.val = (wordByte x 0).toNat := by rw [toNat_wordByte, ha]; have := x.isLt; omega
  have hb' : b.val = (wordByte x 1).toNat := by rw [toNat_wordByte, hb]
  have hc' : c.val = (wordByte x 2).toNat := by rw [toNat_wordByte, hc]
  have hd' : d.val = (wordByte x 3).toNat := by rw [toNat_wordByte, hd]; simp
  rw [roundF, sboxEntry_of_val_eq s 0 ha', sboxEntry_of_val_eq s 1 hb', sboxEntry_of_val_eq s 2 hc',
    sboxEntry_of_val_eq s 3 hd', BitVec.toNat_add, BitVec.toNat_xor, BitVec.toNat_add]
  rfl

/-! ## The rounds as a recurrence (R102, R103) -/

/-- A recurrence over the subkeys `ks`, in the words of R102 and R103, is the fold of the round. -/
theorem foldl_feistelRound_eq (s : Vector (Vector Word 256) 4) (ks : List Word) (x y : Nat → Word)
    (h : ∀ i (hi : i < ks.length), x (i + 1) = y i ^^^ roundF s (x i ^^^ ks[i]) ∧ y (i + 1) = x i ^^^ ks[i]) :
    ks.foldl (feistelRound s) ⟨x 0, y 0⟩ = ⟨x ks.length, y ks.length⟩ := by
  induction ks generalizing x y with
  | nil => rfl
  | cons k ks ih =>
    have ⟨hx, hy⟩ := h 0 (Nat.succ_pos _)
    have hround : feistelRound s ⟨x 0, y 0⟩ k = ⟨x 1, y 1⟩ := by rw [hx, hy]; rfl
    rw [List.foldl_cons, hround]
    exact ih (fun i => x (i + 1)) (fun i => y (i + 1)) fun i hi => h (i + 1) (Nat.succ_lt_succ hi)

@[simp] theorem encSubkeys_length (p : Vector Word 18) : (encSubkeys p).length = 16 := by simp [encSubkeys]

@[simp] theorem decSubkeys_length (p : Vector Word 18) : (decSubkeys p).length = 16 := by simp [decSubkeys]

theorem encSubkeys_getElem (p : Vector Word 18) {i : Nat} (h : i < 16) :
    (encSubkeys p)[i]'(by simpa) = p[i] := by
  simp [encSubkeys]

theorem decSubkeys_getElem (p : Vector Word 18) {i : Nat} (h : i < 16) :
    (decSubkeys p)[i]'(by simpa) = p[17 - i] := by
  simp [decSubkeys, show 2 + (15 - i) = 17 - i by omega]

/-- Settles O16: the fold over `P[0]` to `P[15]` is the recurrence; the worked example is computed. -/
theorem encBlockRecurrence : Obligations.EncBlockRecurrence := by
  refine ⟨fun t x y h => ?_, by decide +kernel⟩
  have hrounds := foldl_feistelRound_eq t.s (encSubkeys t.p) x y fun i hi => by
    rw [encSubkeys_length] at hi
    rw [encSubkeys_getElem t.p hi]
    exact h ⟨i, hi⟩
  rw [encBlock, hrounds, encSubkeys_length]
  rfl

/-- Settles O17: the fold over `P[17]` down to `P[2]` is the recurrence; the worked examples are computed. -/
theorem decBlockRecurrence : Obligations.DecBlockRecurrence := by
  refine ⟨fun t x y h => ?_, by decide +kernel, by decide +kernel⟩
  have hrounds := foldl_feistelRound_eq t.s (decSubkeys t.p) x y fun i hi => by
    rw [decSubkeys_length] at hi
    rw [decSubkeys_getElem t.p hi]
    exact h ⟨i, hi⟩
  rw [decBlock, hrounds, decSubkeys_length]
  rfl

/-! ## The inverse law (R104) -/

/-- A round with the last subkey takes back the last round before the end: what is left is the end of a network that is
one round shorter. -/
theorem feistelRound_feistelEnd_feistelRound (s : Vector (Vector Word 256) 4) (b : Block) (k0 k1 k2 : Word) :
    feistelRound s (feistelEnd k2 k1 (feistelRound s b k0)) k2 = feistelEnd k1 k0 b := by
  have hright : b.l ^^^ k0 ^^^ k2 ^^^ k2 = b.l ^^^ k0 := xor_cancel_right _ k2
  have hleft (f : Word) : b.r ^^^ f ^^^ k1 ^^^ f = b.r ^^^ k1 := by
    rw [BitVec.xor_assoc _ f, BitVec.xor_comm f, ← BitVec.xor_assoc, xor_cancel_right]
  simp only [feistelRound, feistelEnd, hright, hleft]

theorem feistelEnd_feistelEnd (k0 k1 : Word) (b : Block) : feistelEnd k0 k1 (feistelEnd k1 k0 b) = b := by
  simp only [feistelEnd, xor_cancel_right]

/-- A network of any length enciphers with `ks` in its rounds and `kr`, `kl` at its end; seen from the other side, the
same subkeys are `k0`, `k1` and `rest`. The rounds of `rest` in reverse order take all its rounds back. -/
theorem foldl_reverse_feistelEnd (s : Vector (Vector Word 256) 4) {k0 k1 kr kl : Word} {rest ks : List Word}
    (h : k0 :: k1 :: rest = ks ++ [kr, kl]) (b : Block) :
    rest.reverse.foldl (feistelRound s) (feistelEnd kl kr (ks.foldl (feistelRound s) b)) = feistelEnd k1 k0 b := by
  induction rest generalizing k0 k1 ks b with
  | nil =>
    obtain rfl : ks = [] := List.length_eq_zero_iff.mp (by simpa using congrArg List.length h)
    obtain ⟨rfl, rfl⟩ : k0 = kr ∧ k1 = kl := by simpa using h
    rfl
  | cons k2 rest ih =>
    cases ks with
    | nil => simp at h
    | cons k ks =>
      obtain ⟨rfl, htail⟩ := List.cons.inj h
      rw [List.reverse_cons, List.foldl_concat, List.foldl_cons, ih htail, feistelRound_feistelEnd_feistelRound]

/-- The 18 subkeys, the first two split off or the last two. -/
theorem subkeys_eq_encSubkeys_append (p : Vector Word 18) :
    p[0] :: p[1] :: p.toList.drop 2 = encSubkeys p ++ [p[16], p[17]] := by
  have hfirst : p[0] :: p[1] :: p.toList.drop 2 = p.toList.drop 0 := by
    simp [List.drop_eq_getElem_cons]
  have hlast : [p[16], p[17]] = p.toList.drop 16 := by
    simp [List.drop_eq_getElem_cons]
  rw [hfirst, hlast, encSubkeys, List.take_append_drop, List.drop_zero]

/-- Settles O18: in both directions the second network runs through the subkeys of the first in reverse order. -/
theorem decipherInvertsEncipher : Obligations.DecipherInvertsEncipher := by
  intro t b
  have hkeys := subkeys_eq_encSubkeys_append t.p
  have hrev : t.p[17] :: t.p[16] :: (encSubkeys t.p).reverse = decSubkeys t.p ++ [t.p[1], t.p[0]] := by
    simpa [decSubkeys] using (congrArg List.reverse hkeys).symm
  constructor
  · rw [decBlock, encBlock, decSubkeys, foldl_reverse_feistelEnd t.s hkeys, feistelEnd_feistelEnd]
  · rw [encBlock, decBlock, ← List.reverse_reverse (encSubkeys t.p), foldl_reverse_feistelEnd t.s hrev,
      feistelEnd_feistelEnd]

/-! ## ENC and DEC (R105, R106) -/

/-- Settles O19: the effect of ENC on a READY context, and the gate before any other. -/
theorem encResult : Obligations.EncResult := fun _ _ _ =>
  ⟨fun h => execEnc_accepted h, fun h => exec_of_not_ready h (by simp) (by simp)⟩

/-- Settles O20: the effect of DEC on a READY context, and the gate before any other. -/
theorem decResult : Obligations.DecResult := fun _ _ _ =>
  ⟨fun h => execDec_accepted h, fun h => exec_of_not_ready h (by simp) (by simp)⟩

/-- Settles O21: ENC keeps the context, so DEC runs with the same tables and inverts it. -/
theorem decUndoesEnc : Obligations.DecUndoesEnc := by
  intro s l r hready
  have hinverse : decBlock s.ctx.tables (encBlock s.ctx.tables ⟨l, r⟩) = ⟨l, r⟩ :=
    (decipherInvertsEncipher _ _).1
  refine ⟨_, (encResult s l r).1 hready, ((decResult _ _ _).1 ?_).trans ?_⟩
  · exact hready
  · simp only [hinverse]

/-! ## ENC and ECB (R107) -/

/-- ENCB of one block in ECB writes the encipherment of the block it reads and changes nothing else. -/
theorem runMode_ecb_enc_one_block (inp out : Nat) {s : State} (hmode : s.ctx.mode = .ecb) :
    runMode .enc inp out 8 s = s.setMem (memWriteBlock s.mem out (encBlock s.ctx.tables (memReadBlock s.mem inp))) := by
  rw [runMode_block _ _ _ _ _ (by rw [hmode]; rfl), hmode]
  rfl

/-- Settles O39: both commands encipher the block that is read, with the same tables. -/
theorem ecbBlockIsTheEncBlock : Obligations.EcbBlockIsTheEncBlock := by
  intro s a b hmode hready hvalid
  have ⟨⟨ha, _⟩, ⟨hb, _⟩, _⟩ := hvalid
  refine ⟨_, _, exec_bufferInstr_accepted (dir := .enc) ⟨hready, by omega, by omega, fun _ => rfl⟩ hvalid,
    (encResult s _ _).1 hready, ?_⟩
  rw [setResult_mem, runMode_ecb_enc_one_block a b hmode, setMem_mem, ← blockBytes_memReadBlock,
    memReadBlock_memWriteBlock]
  rfl

end Sys2Proof.Machine

/-! PROOFS. The key schedule (41_key_schedule.md): any run that meets its rules takes the model's steps, so it ends in the
model's tables; a repeated key has the same key words; and what INIT reports of the new subkeys. -/

namespace Sys2Proof.Machine

/-- The key schedule as its five passes (R121). -/
theorem keySchedule_eq_passes (key : List Byte) : keySchedule key =
    (sboxPass (sboxPass (sboxPass (sboxPass (subkeyPass (keyedTables key)) 0) 1) 2) 3).tables := by
  unfold keySchedule
  simp only [List.foldl]

/-! ## A run of the rules takes the model's steps (R122 to R125) -/

/-- A sequence that advances by `f` is the fold of `f` over the indexes. -/
theorem foldl_range_eq_of_succ {α : Type} {f : α → Nat → α} {w : Nat → α} {n : Nat}
    (h : ∀ i, i < n → w (i + 1) = f (w i) i) : (List.range n).foldl f (w 0) = w n := by
  induction n with
  | zero => rfl
  | succ n ih =>
    rw [List.range_succ, List.foldl_concat, ih fun i hi => h i (Nat.lt_succ_of_lt hi), h n n.lt_succ_self]

theorem tables_ext {t u : Tables} (hp : ∀ i : Fin 18, t.p[i] = u.p[i])
    (hs : ∀ (j : Fin 4) (i : Fin 256), t.s[j][i] = u.s[j][i]) : t = u := by
  rw [Tables.mk.injEq]
  exact ⟨Vector.ext fun i hi => hp ⟨i, hi⟩,
    Vector.ext fun j hj => Vector.ext fun i hi => hs ⟨j, hj⟩ ⟨i, hi⟩⟩

theorem schedule_ext {v w : Schedule} (ht : v.tables = w.tables) (hb : v.block = w.block) : v = w := by
  rw [Schedule.mk.injEq]
  exact ⟨ht, hb⟩

section
variable {key : List Byte} {w : Nat → Schedule}

/-- Steps 1 and 2 (R122). -/
theorem ScheduleRun.start (h : ScheduleRun key w) : w 0 = ⟨keyedTables key, ⟨0, 0⟩⟩ := by
  refine schedule_ext (tables_ext (fun i => ?_) fun j i => ?_) h.startBlock
  · rw [h.startP i]
    simp [keyedTables, keyWord]
  · rw [h.startS, keyedTables]

/-- Step 3 (R123). -/
theorem ScheduleRun.succ_subkey (h : ScheduleRun key w) {i : Nat} (hi : i < 9) :
    w (i + 1) = subkeyStep (w i) i := by
  have hblock := h.block i (by omega)
  refine schedule_ext (tables_ext (fun j => ?_) fun b e => ?_) hblock
  · rw [h.subkeys i hi j, hblock]
    exact (setSubkeyPair_p _ i _ j).symm
  · rw [h.subkeysKeepS i hi]
    rfl

/-- Step 4 (R124). -/
theorem ScheduleRun.succ_sbox (h : ScheduleRun key w) (j : Fin 4) {i : Nat} (hi : i < 128) :
    w (9 + 128 * j + i + 1) = sboxStep j (w (9 + 128 * j + i)) i := by
  have hblock := h.block (9 + 128 * j + i) (by omega)
  refine schedule_ext (tables_ext (fun k => ?_) fun b e => ?_) hblock
  · rw [h.sboxesKeepP _ (by omega) (by omega)]
    rfl
  · rw [h.sboxes j i j.isLt hi b e, hblock]
    exact (setSboxPair_s _ j i _ b e).symm

theorem ScheduleRun.subkeyPass_eq (h : ScheduleRun key w) : subkeyPass (keyedTables key) = w 9 := by
  rw [subkeyPass, ← h.start]
  exact foldl_range_eq_of_succ fun _ => h.succ_subkey

theorem ScheduleRun.sboxPass_eq (h : ScheduleRun key w) (j : Fin 4) :
    sboxPass (w (9 + 128 * j)) j = w (9 + 128 * (j + 1)) :=
  foldl_range_eq_of_succ (w := fun i => w (9 + 128 * j + i)) fun _ => h.succ_sbox j

end

/-- Settles O23: the run goes through the passes of the model, one for `P` and one for each S-box. -/
theorem scheduleRunIsDetermined : Obligations.ScheduleRunIsDetermined := by
  intro key w _ _ h
  have h0 : sboxPass (w 9) 0 = w 137 := h.sboxPass_eq 0
  have h1 : sboxPass (w 137) 1 = w 265 := h.sboxPass_eq 1
  have h2 : sboxPass (w 265) 2 = w 393 := h.sboxPass_eq 2
  have h3 : sboxPass (w 393) 3 = w 521 := h.sboxPass_eq 3
  rw [keySchedule_eq_passes, h.subkeyPass_eq, h0, h1, h2, h3]

/-- Settles O22: the sequence of the model's own steps meets the rules, and they determine its last tables. -/
theorem keyScheduleIsTheRun : Obligations.KeyScheduleIsTheRun := fun key hpos hle =>
  have hrun := scheduleRun_scheduleAt key
  ⟨scheduleAt key, hrun, scheduleRunIsDetermined key _ hpos hle hrun⟩

/-! ## Repeated keys (R127) -/

/-- The repetitions of a list, read in order, are the list read cyclically. -/
theorem getElem?_flatten_replicate {α : Type} (l : List α) {m i : Nat} (h : i < m * l.length) :
    (List.replicate m l).flatten[i]? = l[i % l.length]? := by
  induction m generalizing i with
  | zero => omega
  | succ m ih =>
    rw [List.replicate_succ, List.flatten_cons]
    by_cases hi : i < l.length
    · rw [List.getElem?_append_left hi, Nat.mod_eq_of_lt hi]
    · have hle := Nat.le_of_not_lt hi
      rw [List.getElem?_append_right hle, ih (by rw [Nat.succ_mul] at h; omega), ← Nat.mod_eq_sub_mod hle]

/-- A key and its repetitions give the same key words (R127). -/
theorem keyWord_flatten_replicate (key : List Byte) {m : Nat} (hm : 1 ≤ m) (hkey : 1 ≤ key.length) (i : Nat) :
    keyWord (List.replicate m key).flatten i = keyWord key i := by
  have hbyte (n : Nat) : (List.replicate m key).flatten.getD (n % (List.replicate m key).flatten.length) 0 =
      key.getD (n % key.length) 0 := by
    have hlen : (List.replicate m key).flatten.length = m * key.length := by simp
    rw [hlen, List.getD_eq_getElem?_getD, getElem?_flatten_replicate key (Nat.mod_lt _ (Nat.mul_pos hm hkey)),
      Nat.mod_mul_left_mod, List.getD_eq_getElem?_getD]
  simp only [keyWord, hbyte]

/-- Settles O24: the key enters the schedule by its key words only. -/
theorem repeatedKeyGivesTheSameTables : Obligations.RepeatedKeyGivesTheSameTables := by
  intro key m hkey hm _
  have hkeyed : keyedTables (List.replicate m key).flatten = keyedTables key := by
    simp only [keyedTables, keyWord_flatten_replicate key hm hkey]
  have htables : keySchedule (List.replicate m key).flatten = keySchedule key := by
    rw [keySchedule_eq_passes, hkeyed, keySchedule_eq_passes]
  exact ⟨htables, by rw [htables]⟩

/-! ## What INIT reports (R126, R187) -/

/-- Settles O26: the installed `WEAK` is the flag of the new subkeys, and the code is read off it. -/
theorem initReportsWeakKeys : Obligations.InitReportsWeakKeys := by
  intro s mode klen key iva cta ha hr
  obtain ⟨m, rfl⟩ := exists_mode_of_accepted_init ha
  have hweak := weakFlag_eq_true (keySchedule (memRead s.mem key klen)).p
  refine ⟨initInstall m klen key iva cta s, execInit_accepted m ha hr, ?_⟩
  rw [initInstall_ctx, initInstall_resp]
  exact ⟨rfl, hweak, fun heq => if_pos (hweak.mpr heq), fun hne => if_neg (mt hweak.mp hne)⟩

end Sys2Proof.Machine

/-! PROOFS. The block modes (42_modes_ecb_cbc.md): the serial loop block by block, ECB and the two chains of CBC,
and the errors that a READY context answers with. -/

namespace Sys2Proof.Machine

/-! ## The errors of a READY context (R141, R190, R193) -/

/-- An error on a READY context sets the code and FAILED, and nothing else (R181). -/
theorem finish_of_ready {c : ResultCode} {s : State} (hc : c.isError = true) (hl : s.ctx.life = .ready) :
    finish c s = (s.setResult c).setLife .failed :=
  if_pos (by simp [hc, hl])

theorem execRstiv_of_not_accepted {iva : Nat} {s : State} (h : ¬ Accepted (.rstiv iva) s) :
    execRstiv iva s = .next (finish .invalidParameter s) :=
  if_pos ((rstivChecks_iff iva s).mpr h)

theorem execRstctr_of_not_accepted {cta : Nat} {s : State} (h : ¬ Accepted (.rstctr cta) s) :
    execRstctr cta s = .next (finish .invalidParameter s) :=
  if_pos ((rstctrChecks_iff cta s).mpr h)

section
variable {inp out len : Nat} {s : State}

/-- A null address of a buffer command is found before its length is looked at. -/
theorem bufferError_of_null (h : inp = 0 ∨ out = 0) : bufferError inp out len s = some .invalidParameter := by
  have hnull : (isNull inp || isNull out) = true := by simpa [isNull, Config.null] using h
  rw [bufferError, if_pos hnull, ite_self]

theorem bufferError_of_length (hl : s.ctx.life = .ready) (hinp : inp ≠ 0) (hout : out ≠ 0)
    (hmode : s.ctx.mode = .ecb ∨ s.ctx.mode = .cbc) (hlen : len % 8 ≠ 0) :
    bufferError inp out len s = some .badBufferLength := by
  have hblock : s.ctx.mode.isBlockMode = true := (isBlockMode_iff _).mpr hmode
  simp [bufferError, hl, hinp, hout, isNull, Config.null, hblock, hlen]

/-- A failed check of a buffer command on a READY context. -/
theorem exec_bufferInstr_of_error {c : ResultCode} (dir : Dir) (hl : s.ctx.life = .ready)
    (h : bufferError inp out len s = some c) :
    exec (bufferInstr dir inp out len) s = .next ((s.setResult c).setLife .failed) := by
  rw [exec_bufferInstr, bufferCommand, h, ← finish_of_ready (bufferError_isError h) hl]

end

/-- Settles O33: each bad operand fails the check that names its code, and the failed check is all that happens. -/
theorem readyContextErrorsInOrder : Obligations.ReadyContextErrorsInOrder := by
  refine fun s hl => ⟨fun iva h => ?_, fun cta h => ?_, fun dir inp out len h => ?_,
    fun dir inp out len hinp hout hmode hlen => ?_⟩
  · have hrejected : ¬ Accepted (.rstiv iva) s := by
      rintro ⟨-, hiva, hmode⟩
      rcases h with h | h | h
      · exact hiva h
      all_goals simp [h] at hmode
    exact (execRstiv_of_not_accepted hrejected).trans (congrArg _ (finish_of_ready rfl hl))
  · have hrejected : ¬ Accepted (.rstctr cta) s := by
      rintro ⟨-, hcta, hmode⟩
      exact h.elim hcta (absurd hmode)
    exact (execRstctr_of_not_accepted hrejected).trans (congrArg _ (finish_of_ready rfl hl))
  · exact exec_bufferInstr_of_error dir hl (bufferError_of_null h)
  · exact exec_bufferInstr_of_error dir hl (bufferError_of_length hl hinp hout hmode hlen)

/-! ## The serial loop, block by block (R73) -/

section
variable (unit : Context → Block → Context × Block) {inp out n k : Nat} (s : State)

/-- Block `k` of the input is still what it was when the loop comes to it. -/
theorem blockLoop_input (h : Apart inp out (8 * n)) (hk : k < n) :
    memReadBlock (blockLoop unit inp out k s).mem (inp + 8 * k) = memReadBlock s.mem (inp + 8 * k) :=
  memReadBlock_congr fun _ _ => blockLoop_read_outside unit k inp out s _ (by omega)

/-- One more block: the unit function of the context so far and of the input block as it was before the command. -/
theorem blockLoop_succ (h : Apart inp out (8 * n)) (hk : k < n) :
    blockLoop unit inp out (k + 1) s =
      ((blockLoop unit inp out k s).setCtx
        (unit (blockLoop unit inp out k s).ctx (memReadBlock s.mem (inp + 8 * k))).1).setMem
      (memWriteBlock (blockLoop unit inp out k s).mem (out + 8 * k)
        (unit (blockLoop unit inp out k s).ctx (memReadBlock s.mem (inp + 8 * k))).2) := by
  rw [blockLoop_append, ← blockLoop_input unit s h hk]
  rfl

/-- Output block `k` is written from the context after `k` blocks, and no later block touches it. -/
theorem blockLoop_output (h : Apart inp out (8 * n)) (hk : k < n) :
    memReadBlock (blockLoop unit inp out n s).mem (out + 8 * k) =
      (unit (blockLoop unit inp out k s).ctx (memReadBlock s.mem (inp + 8 * k))).2 := by
  have hlater : memReadBlock (blockLoop unit inp out n s).mem (out + 8 * k) =
      memReadBlock (blockLoop unit inp out (k + 1) s).mem (out + 8 * k) := by
    obtain ⟨j, rfl⟩ := Nat.exists_eq_add_of_le hk
    rw [blockLoop_append]
    exact memReadBlock_congr fun _ _ => blockLoop_read_outside unit j _ _ _ _ (by omega)
  rw [hlater, blockLoop_succ unit s h hk, setMem_mem, memReadBlock_memWriteBlock]

end

/-- An accepted buffer command of a block mode is the loop of its blocks: what it leaves, and what it leaves alone. -/
theorem exec_bufferInstr_block {dir : Dir} {inp out len : Nat} {s : State} (hb : s.ctx.mode.isBlockMode = true)
    (ha : Accepted (.encb inp out len) s) (hr : ValidBuffers s inp out len) :
    exec (bufferInstr dir inp out len) s = .next
      (((s.setCtx (blockLoop (blockUnit s.ctx.mode dir) inp out (len / 8) s).ctx).setMem
        (blockLoop (blockUnit s.ctx.mode dir) inp out (len / 8) s).mem).setResult .success) := by
  rw [exec_bufferInstr_accepted ha hr, runMode_block _ _ _ _ _ hb, ← blockLoop_frame]

/-- The placements that are defined, counted in blocks. -/
theorem ValidBuffers.apart_blocks {s : State} {inp out len : Nat} (h : ValidBuffers s inp out len) :
    Apart inp out (8 * (len / 8)) := by
  obtain ⟨-, -, hplacement⟩ := h
  have := hplacement.cases
  omega

/-! ## ECB (R145, R146) -/

theorem blockLoop_ecb_ctx (dir : Dir) (inp out n : Nat) (s : State) :
    (blockLoop (blockUnit .ecb dir) inp out n s).ctx = s.ctx := by
  induction n generalizing inp out s with
  | zero => rfl
  | succ n ih => exact (ih _ _ _).trans (blockUnit_ecb_ctx dir s.ctx _)

/-- Settles O38: the context stays as it is, so every block meets the same tables. -/
theorem ecbEnciphersEachBlock : Obligations.EcbEnciphersEachBlock := by
  intro s dir inp out len hmode ha hr
  rw [accepted_bufferInstr] at ha
  have hexec := exec_bufferInstr_block (dir := dir) ((isBlockMode_iff _).mpr (.inl hmode)) ha hr
  rw [hmode, blockLoop_ecb_ctx] at hexec
  refine ⟨(blockLoop (blockUnit .ecb dir) inp out (len / 8) s).mem, hexec, fun k hk => ?_,
    fun a h => blockLoop_read_outside _ _ _ _ _ a (by omega)⟩
  rw [blockLoop_output _ s hr.apart_blocks hk, blockLoop_ecb_ctx]
  cases dir <;> rfl

/-! ## CBC (R147, R148) -/

/-- The ciphertext block of a pair of an input and an output block: the output of ENCB, the input of DECB. -/
def cipherSide (dir : Dir) (x y : Block) : Block :=
  match dir with
  | .enc => y
  | .dec => x

/-- The chaining value that block `k` meets, `m` being host memory after the command: the IV register before the first
block, then the ciphertext block before. -/
def cbcChain (dir : Dir) (inp out : Nat) (s : State) (m : Memory) (k : Nat) : Block :=
  if k = 0 then s.ctx.iv
  else cipherSide dir (memReadBlock s.mem (inp + 8 * (k - 1))) (memReadBlock m (out + 8 * (k - 1)))

/-- Either way, a block of CBC puts its ciphertext into the IV register. -/
theorem blockUnit_cbc_ctx (dir : Dir) (c : Context) (b : Block) :
    (blockUnit .cbc dir c b).1 = c.setIv (cipherSide dir b (blockUnit .cbc dir c b).2) := by
  cases dir <;> rfl

/-- After `k` blocks of CBC the context is the one before, but for the chaining value. -/
theorem blockLoop_cbc_ctx (dir : Dir) {inp out n k : Nat} (s : State) (h : Apart inp out (8 * n)) (hk : k ≤ n) :
    (blockLoop (blockUnit .cbc dir) inp out k s).ctx =
      s.ctx.setIv (cbcChain dir inp out s (blockLoop (blockUnit .cbc dir) inp out n s).mem k) := by
  induction k with
  | zero => rfl
  | succ k ih =>
    rw [blockLoop_succ _ s h hk, setMem_ctx, setCtx_ctx, blockUnit_cbc_ctx, ← blockLoop_output _ s h hk,
      ih (Nat.le_of_succ_le hk)]
    rfl

/-- CBC in either direction: the state after, each output block from its chaining value, and the final one. -/
theorem exec_bufferInstr_cbc (dir : Dir) {inp out len : Nat} {s : State} (hmode : s.ctx.mode = .cbc)
    (ha : Accepted (.encb inp out len) s) (hr : ValidBuffers s inp out len) :
    ∃ m, exec (bufferInstr dir inp out len) s = .next
        (((s.setCtx (s.ctx.setIv (cbcChain dir inp out s m (len / 8)))).setMem m).setResult .success) ∧
      (∀ k, k < len / 8 → memReadBlock m (out + 8 * k) =
        (blockUnit .cbc dir (s.ctx.setIv (cbcChain dir inp out s m k)) (memReadBlock s.mem (inp + 8 * k))).2) ∧
      ∀ a, (a < out ∨ out + len ≤ a) → Memory.read m a = Memory.read s.mem a := by
  have hexec := exec_bufferInstr_block (dir := dir) ((isBlockMode_iff _).mpr (.inr hmode)) ha hr
  have hctx := fun k => blockLoop_cbc_ctx dir (k := k) s hr.apart_blocks
  rw [hmode, hctx _ (Nat.le_refl _)] at hexec
  refine ⟨_, hexec, fun k hk => ?_, fun a h => blockLoop_read_outside _ _ _ _ _ a (by omega)⟩
  rw [blockLoop_output _ s hr.apart_blocks hk, hctx k hk.le]

/-- A CBC command of length 0 is one of no blocks. -/
theorem div_eight_eq_zero_iff_of_accepted {inp out len : Nat} {s : State} (hmode : s.ctx.mode = .cbc)
    (ha : Accepted (.encb inp out len) s) : len / 8 = 0 ↔ len = 0 := by
  obtain ⟨-, -, -, hlen⟩ := ha
  have := hlen (.inr hmode)
  omega

/-- Settles O40: the ciphertext side of ENCB is its output. -/
theorem cbcEncipherChains : Obligations.CbcEncipherChains := by
  intro s inp out len hmode ha hr
  obtain ⟨m, hexec, hblocks, hframe⟩ := exec_bufferInstr_cbc .enc hmode ha hr
  exact ⟨m, _, hexec, hblocks, if_congr (div_eight_eq_zero_iff_of_accepted hmode ha) rfl rfl, hframe⟩

/-- Settles O41: the ciphertext side of DECB is its input, as it was before the command. -/
theorem cbcDecipherChains : Obligations.CbcDecipherChains := by
  intro s inp out len hmode ha hr
  obtain ⟨m, hexec, hblocks, hframe⟩ := exec_bufferInstr_cbc .dec hmode ha hr
  exact ⟨m, _, hexec, hblocks, if_congr (div_eight_eq_zero_iff_of_accepted hmode ha) rfl rfl, hframe⟩

end Sys2Proof.Machine

/-! PROOFS. The stream modes (43_modes_stream.md): the counter and the shift register as 64-bit numbers, one byte of the
keystream machine, whole blocks, and what pieces, directions and data change. -/

namespace Sys2Proof.Machine

/-! ## The 64-bit value of a block (R24, R165) -/

@[simp] theorem blockValue_blockOfValue (v : DWord) : blockValue (blockOfValue v) = v :=
  (BitVec.extractLsb'_append_extractLsb'_eq_extractLsb' (x := v) (start₁ := 0) (len₁ := 32) (len₂ := 32) rfl).trans
    BitVec.extractLsb'_eq_self

theorem blockValue_injective : Function.Injective blockValue :=
  Function.LeftInverse.injective blockOfValue_blockValue

/-- Blocks are equal when their values are the same number. -/
theorem block_eq_of_toNat_eq {a b : Block} (h : (blockValue a).toNat = (blockValue b).toNat) : a = b :=
  blockValue_injective (BitVec.eq_of_toNat_eq h)

/-- The increment on the number: one more, modulo 2^64 (R165). -/
@[simp] theorem blockValue_incrementBlock (b : Block) : blockValue (incrementBlock b) = blockValue b + 1 :=
  blockValue_blockOfValue _

/-- The increment on the words: the carry goes from `CTRR` into `CTRL` (R165). -/
theorem incrementBlock_eq_words (b : Block) :
    incrementBlock b = ⟨if b.r + 1 = 0 then b.l + 1 else b.l, b.r + 1⟩ := by
  apply block_eq_of_toNat_eq
  rw [blockValue_incrementBlock, BitVec.toNat_add, toNat_blockValue, toNat_blockValue]
  split <;> bv_omega

/-- Settles O46: the words with their carry, and the number. -/
theorem counterIncrement : Obligations.CounterIncrement := by
  intro b
  refine ⟨by rw [incrementBlock_eq_words], by rw [incrementBlock_eq_words], ?_⟩
  rw [← toNat_blockValue, ← toNat_blockValue, blockValue_incrementBlock, BitVec.toNat_add]
  rfl

/-! ## The shift register of CFB (R162, R163) -/

/-- A byte XORed below a multiple of 256 is added to it. -/
theorem mul_256_xor_eq_add (a : Nat) {c : Nat} (h : c < 2 ^ 8) : a * 2 ^ 8 ^^^ c = a * 2 ^ 8 + c := by
  have hlow : (a * 2 ^ 8 ^^^ c) % 2 ^ 8 = (a * 2 ^ 8) % 2 ^ 8 ^^^ c % 2 ^ 8 := Nat.xor_mod_two_pow
  have hhigh : (a * 2 ^ 8 ^^^ c) / 2 ^ 8 = (a * 2 ^ 8) / 2 ^ 8 ^^^ c / 2 ^ 8 := Nat.xor_div_two_pow
  rw [Nat.mul_mod_left, Nat.zero_xor] at hlow
  rw [Nat.div_eq_of_lt h, Nat.xor_zero] at hhigh
  omega

/-- The value of a register of at least a byte, shifted up a byte with a byte put in below. -/
theorem toNat_shiftLeft_xor_byte {n : Nat} (hn : 8 ≤ n) (x : BitVec n) (c : Byte) :
    ((x <<< 8) ^^^ c.setWidth n).toNat = x.toNat * 256 % 2 ^ n + c.toNat := by
  obtain ⟨m, rfl⟩ := Nat.exists_eq_add_of_le' hn
  rw [BitVec.toNat_xor, BitVec.toNat_shiftLeft, BitVec.toNat_setWidth_of_le hn, Nat.shiftLeft_eq, Nat.pow_add,
    Nat.mul_mod_mul_right, mul_256_xor_eq_add _ c.isLt]

theorem toNat_blockValue_shiftIn (iv : Block) (c : Byte) :
    (blockValue (shiftIn iv c)).toNat = (blockValue iv).toNat * 256 % 2 ^ 64 + c.toNat := by
  rw [shiftIn, blockValue_blockOfValue, toNat_shiftLeft_xor_byte (by decide)]

/-- Settles O47: both sides are the same 64-bit number. -/
theorem cfbShiftInWords : Obligations.CfbShiftInWords := by
  intro iv c
  have htop := toNat_wordByte iv.r 0
  apply block_eq_of_toNat_eq
  rw [toNat_blockValue_shiftIn, toNat_blockValue, toNat_blockValue, toNat_shiftLeft_xor_byte (by decide),
    toNat_shiftLeft_xor_byte (by decide)]
  simp only [wordByte, Nat.mul_zero, Nat.sub_zero] at htop
  omega

/-- On the eight bytes: the first is lost, the others move up one place, and the new one comes last. -/
theorem blockBytes_shiftIn (iv : Block) (c : Byte) : blockBytes (shiftIn iv c) = (blockBytes iv).tail ++ [c] := by
  obtain ⟨l, r⟩ := iv
  rw [← be32_wordByte l, ← be32_wordByte r]
  generalize wordByte l 0 = a0, wordByte l 1 = a1, wordByte l 2 = a2, wordByte l 3 = a3
  generalize wordByte r 0 = a4, wordByte r 1 = a5, wordByte r 2 = a6, wordByte r 3 = a7
  have hshift : shiftIn ⟨be32 a0 a1 a2 a3, be32 a4 a5 a6 a7⟩ c = ⟨be32 a1 a2 a3 a4, be32 a5 a6 a7 c⟩ := by
    apply block_eq_of_toNat_eq
    rw [toNat_blockValue_shiftIn]
    simp only [toNat_blockValue, toNat_be32]
    omega
  simp [hshift, blockBytes]

theorem unbe32_injective : Function.Injective unbe32 := fun _ w h => (be32_of_unbe32_eq h).symm.trans (be32_wordByte w)

/-- A block is determined by its eight bytes. -/
theorem blockBytes_injective : Function.Injective blockBytes := by
  rintro ⟨l, r⟩ ⟨l', r'⟩ h
  obtain ⟨hl, hr⟩ := List.append_inj h rfl
  obtain rfl : l = l' := unbe32_injective hl
  obtain rfl : r = r' := unbe32_injective hr
  rfl

/-- After several bytes shifted in, the register holds the last eight of its old bytes and the new ones. -/
theorem blockBytes_foldl_shiftIn (cs : List Byte) (iv : Block) :
    blockBytes (cs.foldl shiftIn iv) = (blockBytes iv ++ cs).drop cs.length := by
  induction cs generalizing iv with
  | nil => simp
  | cons c cs ih => rw [List.foldl_cons, ih, blockBytes_shiftIn, List.append_assoc]; rfl

/-- Shifting in the eight bytes of a block leaves that block (R163 corner case (a)). -/
theorem foldl_shiftIn_blockBytes (iv b : Block) : (blockBytes b).foldl shiftIn iv = b := by
  apply blockBytes_injective
  rw [blockBytes_foldl_shiftIn]
  rfl

/-! ## The keystream machine (R161, R162) -/

/-- The keystream block that the next refill makes: the IV register (CFB, OFB) or the counter (CTR), enciphered. -/
def keystreamBlock (c : Context) : Block := encBlock c.tables (if c.mode = .ctr then c.ctr else c.iv)

/-- The context from whose `KS[OFF]` the next byte is taken: refilled when `OFF` is 0. -/
def filled (c : Context) : Context := if c.off = 0 then refill c else c

section
variable {c : Context}

/-- A stream mode's refill fills `KS` with the keystream block. -/
theorem refill_setKeystream (h : c.mode.isBlockMode = false) :
    (refill c).setKeystream (keystreamBlock c) = refill c := by
  cases hm : c.mode with
  | ecb => rw [hm] at h; cases h
  | cbc => rw [hm] at h; cases h
  | cfb => simp only [refill, keystreamBlock, hm]; rfl
  | ofb => simp only [refill, keystreamBlock, hm]; rfl
  | ctr => simp only [refill, keystreamBlock, hm]; rfl

theorem refill_ks (h : c.mode.isBlockMode = false) : (refill c).ks.toList = blockBytes (keystreamBlock c) := by
  rw [← refill_setKeystream h]; rfl

theorem refill_iv_of_cfb (h : c.mode = .cfb) : (refill c).iv = c.iv := by rw [refill, h]; rfl

theorem refill_iv_of_ofb (h : c.mode = .ofb) : (refill c).iv = keystreamBlock c := by
  simp only [keystreamBlock, refill, h]; rfl

theorem refill_ctr_of_ctr (h : c.mode = .ctr) : (refill c).ctr = incrementBlock c.ctr := by rw [refill, h]; rfl

end

@[simp] theorem filled_mode (c : Context) : (filled c).mode = c.mode := by
  rw [filled, apply_ite Context.mode, (refill_sameKey c).mode, ite_self]

@[simp] theorem filled_off (c : Context) : (filled c).off = c.off := by
  rw [filled, apply_ite Context.off, refill_off, ite_self]

theorem streamByte_eq (dir : Dir) (c : Context) (x : Byte) : streamByte dir c x = useKeystream dir (filled c) x := rfl

theorem streamByte_snd (dir : Dir) (c : Context) (x : Byte) :
    (streamByte dir c x).2 = x ^^^ (filled c).ks[c.off] := by
  rw [streamByte_eq, useKeystream]; simp only [filled_off]

/-- In CFB a byte shifts its ciphertext into the IV register. -/
theorem streamByte_fst_of_cfb (dir : Dir) {c : Context} (x : Byte) (h : c.mode = .cfb) :
    (streamByte dir c x).1 =
      ((filled c).setIv (shiftIn (filled c).iv (feedbackByte dir x (streamByte dir c x).2))).advanceOff := by
  rw [streamByte_eq, useKeystream, if_pos (by simpa using h)]

/-- In OFB and CTR the data never enters the registers (R166, R167). -/
theorem streamByte_fst_of_not_cfb (dir : Dir) {c : Context} (x : Byte) (h : c.mode ≠ .cfb) :
    (streamByte dir c x).1 = (filled c).advanceOff := by
  rw [streamByte_eq, useKeystream, if_neg (by simpa using h)]

theorem streamByte_ks (dir : Dir) (c : Context) (x : Byte) : (streamByte dir c x).1.ks = (filled c).ks := by
  by_cases h : c.mode = .cfb
  · rw [streamByte_fst_of_cfb dir x h]; rfl
  · rw [streamByte_fst_of_not_cfb dir x h]; rfl

section
variable {c : Context}

theorem filled_ks (h : c.mode.isBlockMode = false) :
    (filled c).ks.toList = if c.off = 0 then blockBytes (keystreamBlock c) else c.ks.toList := by
  rw [filled, apply_ite Context.ks, apply_ite Vector.toList, refill_ks h]

theorem filled_iv_of_cfb (h : c.mode = .cfb) : (filled c).iv = c.iv := by
  rw [filled, apply_ite Context.iv, refill_iv_of_cfb h, ite_self]

theorem filled_iv_of_ofb (h : c.mode = .ofb) : (filled c).iv = if c.off = 0 then keystreamBlock c else c.iv := by
  rw [filled, apply_ite Context.iv, refill_iv_of_ofb h]

theorem filled_ctr_of_ctr (h : c.mode = .ctr) :
    blockValue (filled c).ctr = blockValue c.ctr + if c.off = 0 then 1 else 0 := by
  rw [filled]
  split
  · rw [refill_ctr_of_ctr h, blockValue_incrementBlock]
  · exact (BitVec.add_zero _).symm

end

/-! ## One byte (R161, R162) -/

theorem byteLoop_one (unit : Context → Byte → Context × Byte) (inp out : Nat) (s : State) :
    byteLoop unit inp out 1 s = (s.setCtx (unit s.ctx (Memory.read s.mem inp)).1).setMem
      (Memory.write s.mem out (unit s.ctx (Memory.read s.mem inp)).2) := rfl

/-- Settles O42: the command is one stream byte, taken from the context that is filled first when `OFF` is 0. -/
theorem oneStreamByte : Obligations.OneStreamByte := by
  intro s dir inp out hmode ha hr
  rw [accepted_bufferInstr] at ha
  have hb : s.ctx.mode.isBlockMode = false := by rcases hmode with h | h | h <;> rw [h] <;> rfl
  have hexec := exec_bufferInstr_accepted (dir := dir) ha hr
  rw [runMode_stream _ _ _ _ _ hb, byteLoop_one] at hexec
  refine ⟨_, hexec, ?_⟩
  simp only [setResult_ctx, setResult_mem, setMem_ctx, setMem_mem, setCtx_ctx, read_write_self]
  generalize Memory.read s.mem inp = x
  refine ⟨?_, ?_, ?_, fun h => ⟨?_, streamByte_iv_of_ctr dir _ x h⟩,
    fun h => ⟨?_, streamByte_ctr dir _ x (by simp [h])⟩, fun h => ⟨streamByte_ctr dir _ x (by simp [h]), ?_⟩⟩
  · rw [streamByte_ks, filled_ks hb, keystreamBlock]
  · rw [streamByte_snd]
    simp only [streamByte_ks]
  · rw [streamByte_off, Fin.val_add, Fin.val_one]
  · rw [streamByte_fst_of_not_cfb dir x (by simp [h]), advanceOff_ctr, filled_ctr_of_ctr h]
  · rw [streamByte_fst_of_not_cfb dir x (by simp [h]), advanceOff_iv, filled_iv_of_ofb h, keystreamBlock]
  · rw [streamByte_fst_of_cfb dir x h, advanceOff_iv, setIv_iv, toNat_blockValue_shiftIn, filled_iv_of_cfb h]
    cases dir <;> simp only [feedbackByte]

/-! ## A block of a stream mode (R163 corner case (a)) -/

/-- What eight bytes from `OFF` = 0 do, as one block: CFB ends with the ciphertext block in the IV register. -/
def streamBlock (dir : Dir) (c : Context) (b : Block) : Context × Block :=
  let y := xorBlock b (keystreamBlock c)
  (if c.mode = .cfb then (refill c).setIv (cipherSide dir b y) else refill c, y)

theorem wordByte_xor (v w : Word) (i : Nat) : wordByte (v ^^^ w) i = wordByte v i ^^^ wordByte w i :=
  BitVec.extractLsb'_xor

theorem streamBlock_sameKey (dir : Dir) (c : Context) (b : Block) : SameKey c (streamBlock dir c b).1 := by
  unfold streamBlock
  dsimp only
  split
  · exact (refill_sameKey c).trans ⟨rfl, rfl, rfl, rfl⟩
  · exact refill_sameKey c

@[simp] theorem streamBlock_off (dir : Dir) (c : Context) (b : Block) : (streamBlock dir c b).1.off = c.off := by
  unfold streamBlock
  dsimp only
  split
  · exact refill_off c
  · exact refill_off c

/-- The bytes of the ciphertext block are the ciphertext bytes. -/
theorem blockBytes_cipherSide (dir : Dir) (x y : Block) :
    blockBytes (cipherSide dir x y) = List.zipWith (feedbackByte dir) (blockBytes x) (blockBytes y) := by
  cases dir <;> rfl

/-- From `OFF` = 0, the eight bytes of a block are processed as that block: one refill, and the bytes in order. -/
theorem runUnits_streamByte_block (dir : Dir) {c : Context} (b : Block) (hb : c.mode.isBlockMode = false)
    (hoff : c.off = 0) :
    runUnits (streamByte dir) c (blockBytes b) = ((streamBlock dir c b).1, blockBytes (streamBlock dir c b).2) := by
  have hmode := (refill_sameKey c).mode
  have hroff := (refill_off c).trans hoff
  have hfill := refill_setKeystream hb
  have hshift := foldl_shiftIn_blockBytes (refill c).iv (cipherSide dir b (xorBlock b (keystreamBlock c)))
  rw [blockBytes_cipherSide] at hshift
  unfold streamBlock
  generalize keystreamBlock c = k at *
  generalize hd : refill c = d at *
  obtain ⟨_, mode, iv, _, ks, off, _, _⟩ := d
  obtain rfl : off = 0 := hroff
  cases hfill
  obtain rfl : mode = c.mode := hmode
  by_cases hcfb : c.mode = .cfb
  · simpa [blockBytes, unbe32, streamByte, useKeystream, hoff, hd, hcfb, Context.advanceOff, Context.setIv,
      xorBlock, wordByte_xor] using hshift
  · simp [blockBytes, unbe32, streamByte, useKeystream, hoff, hd, hcfb, Context.advanceOff, xorBlock, wordByte_xor]

section
variable {c : Context}

theorem streamBlock_iv_of_cfb (dir : Dir) (b : Block) (h : c.mode = .cfb) :
    (streamBlock dir c b).1.iv = cipherSide dir b (streamBlock dir c b).2 := by
  simp [streamBlock, h]

theorem streamBlock_iv_of_ofb (dir : Dir) (b : Block) (h : c.mode = .ofb) :
    (streamBlock dir c b).1.iv = encBlock c.tables c.iv := by
  simp [streamBlock, h, refill_iv_of_ofb, keystreamBlock]

theorem streamBlock_ctr_of_ctr (dir : Dir) (b : Block) (h : c.mode = .ctr) :
    (streamBlock dir c b).1.ctr = incrementBlock c.ctr := by
  simp [streamBlock, h, refill_ctr_of_ctr]

end

/-! ## Whole blocks (R163 to R167) -/

theorem byteLoop_eq_runUnits (unit : Context → Byte → Context × Byte) (n : Nat) (inp out : Nat) (s : State)
    (h : Apart inp out n) :
    byteLoop unit inp out n s =
      (s.setCtx (runUnits unit s.ctx (memRead s.mem inp n)).1).setMem
        (memWrite s.mem out (runUnits unit s.ctx (memRead s.mem inp n)).2) := by
  induction n generalizing inp out s with
  | zero => rfl
  | succ n ih =>
    have hrest (v : Byte) : memRead (Memory.write s.mem out v) (inp + 1) n = memRead s.mem (inp + 1) n :=
      memRead_congr n fun i hi => read_write_ne _ _ (by omega)
    rw [byteLoop, ih _ _ _ (by omega), setMem_mem, hrest]
    rfl

theorem memWriteBlock_eq_memWrite (m : Memory) (a : Nat) (b : Block) :
    memWriteBlock m a b = memWrite m a (blockBytes b) := rfl

/-- From `OFF` = 0, a stream mode over whole blocks is the loop of those blocks. -/
theorem byteLoop_streamByte_blocks (dir : Dir) (n : Nat) (inp out : Nat) (s : State)
    (hb : s.ctx.mode.isBlockMode = false) (hoff : s.ctx.off = 0) (h : Apart inp out (8 * n)) :
    byteLoop (streamByte dir) inp out (8 * n) s = blockLoop (streamBlock dir) inp out n s := by
  induction n generalizing inp out s with
  | zero => rfl
  | succ n ih =>
    have hfirst : byteLoop (streamByte dir) inp out 8 s =
        (s.setCtx (streamBlock dir s.ctx (memReadBlock s.mem inp)).1).setMem
          (memWriteBlock s.mem out (streamBlock dir s.ctx (memReadBlock s.mem inp)).2) := by
      rw [byteLoop_eq_runUnits _ _ _ _ _ (by omega), ← blockBytes_memReadBlock, runUnits_streamByte_block dir _ hb hoff,
        memWriteBlock_eq_memWrite]
    rw [Nat.mul_succ, Nat.add_comm, byteLoop_append, hfirst, blockLoop]
    refine ih _ _ _ ?_ ((streamBlock_off dir _ _).trans hoff) (by omega)
    exact (congrArg Mode.isBlockMode (streamBlock_sameKey dir _ _).mode).trans hb

theorem exec_bufferInstr_streamBlocks {dir : Dir} {inp out n : Nat} {s : State} (hb : s.ctx.mode.isBlockMode = false)
    (hoff : s.ctx.off = 0) (ha : Accepted (bufferInstr dir inp out (8 * n)) s) (hr : ValidBuffers s inp out (8 * n)) :
    exec (bufferInstr dir inp out (8 * n)) s =
      .next ((blockLoop (streamBlock dir) inp out n s).setResult .success) := by
  have ⟨_, _, hplacement⟩ := hr
  rw [exec_bufferInstr_accepted ((accepted_bufferInstr ..).mp ha) hr, runMode_stream _ _ _ _ _ hb,
    byteLoop_streamByte_blocks dir n inp out s hb hoff hplacement.cases]

section
variable (dir : Dir) (inp out : Nat) (s : State)

/-- The context after `k` blocks of a stream mode. -/
def streamCtx (k : Nat) : Context := (blockLoop (streamBlock dir) inp out k s).ctx

theorem streamCtx_succ (k : Nat) :
    ∃ b, streamCtx dir inp out s (k + 1) = (streamBlock dir (streamCtx dir inp out s k) b).1 :=
  ⟨_, by rw [streamCtx, blockLoop_append]; rfl⟩

theorem streamCtx_sameKey (k : Nat) : SameKey s.ctx (streamCtx dir inp out s k) := by
  induction k with
  | zero => exact SameKey.refl _
  | succ k ih =>
    obtain ⟨b, hb⟩ := streamCtx_succ dir inp out s k
    rw [hb]
    exact ih.trans (streamBlock_sameKey dir _ b)

theorem streamCtx_off (k : Nat) : (streamCtx dir inp out s k).off = s.ctx.off := by
  induction k with
  | zero => rfl
  | succ k ih =>
    obtain ⟨b, hb⟩ := streamCtx_succ dir inp out s k
    rw [hb, streamBlock_off, ih]

theorem keystreamBlock_streamCtx (k : Nat) : keystreamBlock (streamCtx dir inp out s k) = encBlock s.ctx.tables
    (if s.ctx.mode = .ctr then (streamCtx dir inp out s k).ctr else (streamCtx dir inp out s k).iv) := by
  have hkey := streamCtx_sameKey dir inp out s k
  rw [keystreamBlock, hkey.tables, hkey.mode]

/-- In OFB the IV register is enciphered once a block. -/
theorem streamCtx_iv_of_ofb (h : s.ctx.mode = .ofb) (k : Nat) :
    (streamCtx dir inp out s k).iv = Nat.repeat (encBlock s.ctx.tables) k s.ctx.iv := by
  induction k with
  | zero => rfl
  | succ k ih =>
    obtain ⟨b, hb⟩ := streamCtx_succ dir inp out s k
    have hkey := streamCtx_sameKey dir inp out s k
    rw [hb, streamBlock_iv_of_ofb dir b (hkey.mode.trans h), hkey.tables, ih]
    rfl

/-- In CTR the counter goes up by one a block. -/
theorem streamCtx_ctr_of_ctr (h : s.ctx.mode = .ctr) (k : Nat) :
    blockValue (streamCtx dir inp out s k).ctr = blockValue s.ctx.ctr + BitVec.ofNat 64 k := by
  induction k with
  | zero => exact (BitVec.add_zero _).symm
  | succ k ih =>
    obtain ⟨b, hb⟩ := streamCtx_succ dir inp out s k
    have hkey := streamCtx_sameKey dir inp out s k
    rw [hb, streamBlock_ctr_of_ctr dir b (hkey.mode.trans h), blockValue_incrementBlock, ih, BitVec.add_assoc,
      BitVec.ofNat_add]
    rfl

/-- In CFB the IV register holds the ciphertext block before, as the chaining value of CBC. -/
theorem streamCtx_iv_of_cfb {n k : Nat} (h : s.ctx.mode = .cfb) (hapart : Apart inp out (8 * n)) (hk : k ≤ n) :
    (streamCtx dir inp out s k).iv = cbcChain dir inp out s (blockLoop (streamBlock dir) inp out n s).mem k := by
  cases k with
  | zero => rfl
  | succ k =>
    have hmode := (streamCtx_sameKey dir inp out s k).mode.trans h
    rw [streamCtx, blockLoop_succ _ s hapart hk, setMem_ctx, setCtx_ctx, ← streamCtx, streamBlock_iv_of_cfb dir _ hmode,
      streamCtx, ← blockLoop_output _ s hapart hk]
    rfl

/-- Each output block is its input block XOR the keystream block of the context so far. -/
theorem streamBlocks_output {n k : Nat} (hapart : Apart inp out (8 * n)) (hk : k < n) :
    memReadBlock (blockLoop (streamBlock dir) inp out n s).mem (out + 8 * k) =
      xorBlock (memReadBlock s.mem (inp + 8 * k)) (keystreamBlock (streamCtx dir inp out s k)) :=
  blockLoop_output _ s hapart hk

end

/-- Settles O43: the chaining value is the IV register, which each block leaves with its ciphertext. -/
theorem cfbWholeBlocks : Obligations.CfbWholeBlocks := by
  intro s dir inp out n hmode hoff ha hr
  have ⟨_, _, hplacement⟩ := hr
  have hb : s.ctx.mode.isBlockMode = false := by rw [hmode]; rfl
  have hiv := fun k hk => streamCtx_iv_of_cfb dir inp out s (n := n) (k := k) hmode hplacement.cases hk
  refine ⟨_, exec_bufferInstr_streamBlocks hb hoff ha hr, fun k hk => ?_, ?_, (streamCtx_off ..).trans hoff⟩
  · rw [setResult_mem, streamBlocks_output dir inp out s hplacement.cases hk, keystreamBlock_streamCtx,
      if_neg (by simp [hmode]), hiv k hk.le]
    cases dir <;> rfl
  · refine (hiv n (Nat.le_refl n)).trans ?_
    cases dir <;> rfl

/-- Settles O44: the IV register, enciphered once more, is the keystream block. -/
theorem ofbWholeBlocks : Obligations.OfbWholeBlocks := by
  intro s dir inp out n hmode hoff ha hr
  have ⟨_, _, hplacement⟩ := hr
  have hb : s.ctx.mode.isBlockMode = false := by rw [hmode]; rfl
  have hiv := streamCtx_iv_of_ofb dir inp out s hmode
  refine ⟨_, exec_bufferInstr_streamBlocks hb hoff ha hr, fun k hk => ?_, hiv n, (streamCtx_off ..).trans hoff⟩
  rw [setResult_mem, streamBlocks_output dir inp out s hplacement.cases hk, keystreamBlock_streamCtx,
    if_neg (by simp [hmode]), hiv, Nat.repeat]

/-- Settles O45: the counter of each block is the first counter and the number of the block. -/
theorem ctrWholeBlocks : Obligations.CtrWholeBlocks := by
  intro s dir inp out n hmode hoff ha hr
  have ⟨_, _, hplacement⟩ := hr
  have hb : s.ctx.mode.isBlockMode = false := by rw [hmode]; rfl
  have hctr := streamCtx_ctr_of_ctr dir inp out s hmode
  refine ⟨_, exec_bufferInstr_streamBlocks hb hoff ha hr, fun k hk => ?_, hctr n, (streamCtx_off ..).trans hoff⟩
  rw [setResult_mem, streamBlocks_output dir inp out s hplacement.cases hk, keystreamBlock_streamCtx, if_pos hmode,
    ← hctr, blockOfValue_blockValue]

/-! ## Direction and data in OFB and CTR (R166, R167) -/

/-- In OFB and CTR the mode driver is one routine for both directions (R170). -/
theorem runMode_dir {s : State} (h : s.ctx.mode = .ofb ∨ s.ctx.mode = .ctr) (inp out len : Nat) :
    runMode .enc inp out len s = runMode .dec inp out len s := by
  rcases h with h | h <;> simp only [runMode, h]

/-- Settles O51: the direction reaches the mode driver only. -/
theorem ofbAndCtrIgnoreDirection : Obligations.OfbAndCtrIgnoreDirection := by
  intro s inp out len h
  show bufferCommand .enc inp out len s = bufferCommand .dec inp out len s
  simp only [bufferCommand, runMode_dir h]

/-- The next `n` keystream bytes, and the context after them, when the data does not enter the registers. -/
def keystream : Nat → Context → Context × List Byte
  | 0, c => (c, [])
  | n + 1, c => ((keystream n (filled c).advanceOff).1, (filled c).ks[c.off] :: (keystream n (filled c).advanceOff).2)

@[simp] theorem keystream_length (n : Nat) (c : Context) : (keystream n c).2.length = n := by
  induction n generalizing c with
  | zero => rfl
  | succ n ih => rw [keystream, List.length_cons, ih]

/-- In OFB and CTR the output is the data XOR the keystream. -/
theorem runUnits_streamByte_of_not_cfb (dir : Dir) (xs : List Byte) {c : Context} (h : c.mode ≠ .cfb) :
    runUnits (streamByte dir) c xs =
      ((keystream xs.length c).1, List.zipWith (· ^^^ ·) xs (keystream xs.length c).2) := by
  induction xs generalizing c with
  | nil => rfl
  | cons x xs ih =>
    rw [runUnits_cons, streamByte_fst_of_not_cfb dir x h, streamByte_snd, ih (by simpa using h)]
    rfl

@[simp] theorem memRead_getElem (m : Memory) (a n i : Nat) (h : i < (memRead m a n).length) :
    (memRead m a n)[i] = Memory.read m (a + i) :=
  Option.some.inj ((List.getElem?_eq_getElem h).symm.trans (memRead_getElem? m a n i (by simpa using h)))

/-- A buffer command in OFB or CTR: its context, and what its output bytes differ in from its input. -/
theorem runMode_keystream_spec (dir : Dir) {inp out len : Nat} {s : State} (h : s.ctx.mode = .ofb ∨ s.ctx.mode = .ctr)
    (hapart : Apart inp out len) :
    (runMode dir inp out len s).ctx = (keystream len s.ctx).1 ∧
    ∀ i, i < len → some (Memory.read (runMode dir inp out len s).mem (out + i) ^^^ Memory.read s.mem (inp + i)) =
      (keystream len s.ctx).2[i]? := by
  have hb : s.ctx.mode.isBlockMode = false := by rcases h with h | h <;> rw [h] <;> rfl
  obtain ⟨hctx, hout⟩ := byteLoop_spec (streamByte dir) len inp out s hapart
  rw [runUnits_streamByte_of_not_cfb dir _ (by rcases h with h | h <;> simp [h]), memRead_length] at hctx hout
  rw [runMode_stream _ _ _ _ _ hb]
  refine ⟨hctx, fun i hi => ?_⟩
  have hi' : i < (keystream len s.ctx).2.length := (keystream_length len s.ctx).symm ▸ hi
  have hbyte : Memory.read (byteLoop (streamByte dir) inp out len s).mem (out + i) =
      Memory.read s.mem (inp + i) ^^^ (keystream len s.ctx).2[i] := by
    simpa [List.getElem?_zipWith, hi] using congrArg (·[i]?) hout
  rw [hbyte, BitVec.xor_comm, ← BitVec.xor_assoc, BitVec.xor_self, BitVec.zero_xor, List.getElem?_eq_getElem hi']

/-- Settles O52: the context and the keystream are functions of the first context. -/
theorem keystreamIsIndependentOfTheData : Obligations.KeystreamIsIndependentOfTheData := by
  intro s t dir inp out inp' out' len hctx hmode ha hr ha' hr'
  rw [accepted_bufferInstr] at ha ha'
  have ⟨_, _, hplacement⟩ := hr
  have ⟨_, _, hplacement'⟩ := hr'
  obtain ⟨hend, hbytes⟩ := runMode_keystream_spec dir hmode hplacement.cases
  obtain ⟨hend', hbytes'⟩ := runMode_keystream_spec dir (hctx ▸ hmode) hplacement'.cases
  rw [← hctx] at hend' hbytes'
  exact ⟨_, _, exec_bufferInstr_accepted ha hr, exec_bufferInstr_accepted ha' hr', hend.trans hend'.symm,
    fun i hi => Option.some.inj ((hbytes i hi).trans (hbytes' i hi).symm)⟩

/-! ## Deciphering what was enciphered (R169) -/

/-- What a unit function undoes unit by unit, its run undoes, and it ends in the same context. -/
theorem runUnits_undoes {α : Type} {f g : Context → α → Context × α} (h : ∀ c x, g c (f c x).2 = ((f c x).1, x))
    (xs : List α) (c : Context) : runUnits g c (runUnits f c xs).2 = ((runUnits f c xs).1, xs) := by
  induction xs generalizing c with
  | nil => rfl
  | cons x xs ih => simp only [runUnits_cons, h, ih]

theorem blockUnit_dec_enc (m : Mode) (c : Context) (b : Block) :
    blockUnit m .dec c (blockUnit m .enc c b).2 = ((blockUnit m .enc c b).1, b) := by
  have hinv (b : Block) := (decipherInvertsEncipher c.tables b).1
  cases m <;> simp [blockUnit, ecbEncUnit, ecbDecUnit, cbcEncUnit, cbcDecUnit, hinv]

theorem streamByte_dec_enc (c : Context) (x : Byte) :
    streamByte .dec c (streamByte .enc c x).2 = ((streamByte .enc c x).1, x) := by
  simp [streamByte_eq, useKeystream, feedbackByte]

/-- Deciphering the bytes that were enciphered, from the same context, gives the input back. -/
theorem runMode_dec_enc {s r : State} {inp out back len : Nat} (hctx : r.ctx = s.ctx)
    (hmem : r.mem = (runMode .enc inp out len s).mem) (h : Apart inp out len) (h' : Apart out back len)
    (hlen : s.ctx.mode.isBlockMode = true → len % 8 = 0) :
    memRead (runMode .dec out back len r).mem back len = memRead s.mem inp len := by
  cases hb : s.ctx.mode.isBlockMode
  · rw [runMode_stream _ _ _ _ _ hb] at hmem
    obtain ⟨-, hout⟩ := byteLoop_spec (streamByte .enc) len inp out s h
    obtain ⟨-, hback⟩ := byteLoop_spec (streamByte .dec) len out back r h'
    rw [runMode_stream _ _ _ _ _ (hctx ▸ hb), hback, hmem, hout, hctx, runUnits_undoes streamByte_dec_enc]
  · obtain ⟨n, rfl⟩ := Nat.dvd_of_mod_eq_zero (hlen hb)
    have hdiv : 8 * n / 8 = n := Nat.mul_div_cancel_left n (by decide)
    rw [runMode_block _ _ _ _ _ hb, hdiv] at hmem
    obtain ⟨-, hout⟩ := blockLoop_spec (blockUnit s.ctx.mode .enc) n inp out s h
    obtain ⟨-, hback⟩ := blockLoop_spec (blockUnit s.ctx.mode .dec) n out back r h'
    rw [runMode_block _ _ _ _ _ (hctx ▸ hb), hdiv, memRead_eq_flatMap_memBlocks, memRead_eq_flatMap_memBlocks,
      hctx, hback, hmem, hout, hctx, runUnits_undoes (blockUnit_dec_enc _)]

/-- A buffer command that reports Success was accepted, had valid regions and ran. -/
theorem bufferCommand_of_success {dir : Dir} {inp out len : Nat} {s t : State}
    (h : bufferCommand dir inp out len s = .next t) (ht : t.resp.result = .success) :
    Accepted (.encb inp out len) s ∧ ValidBuffers s inp out len ∧
      t = (runMode dir inp out len s).setResult .success := by
  rcases bufferCommand_cases h with ⟨c, -, hc, rfl⟩ | hran
  · obtain rfl : c = .success := by simpa using ht
    cases hc
  · exact hran

/-- Settles O49: the command that wrote the input of DECB ran, and DECB undoes it unit by unit. -/
theorem roundTrip : Obligations.RoundTrip := by
  intro s t r inp out back len henc hsuccess hctx hmem hr'
  obtain ⟨⟨hlife, -, hout, hlen⟩, ⟨-, -, hplacement⟩, rfl⟩ := bufferCommand_of_success henc hsuccess
  have ⟨_, ⟨hback, _⟩, hplacement'⟩ := hr'
  have ha' : Accepted (.encb out back len) r := by
    refine ⟨?_, hout, Nat.ne_of_gt hback, ?_⟩ <;> rw [hctx]
    · exact hlife
    · exact hlen
  exact ⟨_, exec_bufferInstr_accepted (dir := .dec) ha' hr', runMode_dec_enc hctx hmem hplacement.cases
    hplacement'.cases fun hb => hlen ((isBlockMode_iff _).mp hb)⟩

/-! ## Pieces (R168) -/

section
variable {s t : State} (hctx : t.ctx = s.ctx) (hmem : t.mem = s.mem)
include hctx hmem

/-- The loops read nothing but the context and host memory. -/
theorem blockLoop_congr_state (unit : Context → Block → Context × Block) (inp out n : Nat) :
    (blockLoop unit inp out n t).ctx = (blockLoop unit inp out n s).ctx ∧
    (blockLoop unit inp out n t).mem = (blockLoop unit inp out n s).mem := by
  induction n generalizing inp out s t with
  | zero => exact ⟨hctx, hmem⟩
  | succ n ih =>
    rw [blockLoop, blockLoop, hctx, hmem]
    refine ih ?_ ?_ _ _ <;> rfl

theorem byteLoop_congr_state (unit : Context → Byte → Context × Byte) (inp out n : Nat) :
    (byteLoop unit inp out n t).ctx = (byteLoop unit inp out n s).ctx ∧
    (byteLoop unit inp out n t).mem = (byteLoop unit inp out n s).mem := by
  induction n generalizing inp out s t with
  | zero => exact ⟨hctx, hmem⟩
  | succ n ih =>
    rw [byteLoop, byteLoop, hctx, hmem]
    refine ih ?_ ?_ _ _ <;> rfl

theorem runMode_congr_state (dir : Dir) (inp out len : Nat) :
    (runMode dir inp out len t).ctx = (runMode dir inp out len s).ctx ∧
    (runMode dir inp out len t).mem = (runMode dir inp out len s).mem := by
  cases hb : s.ctx.mode.isBlockMode
  · rw [runMode_stream _ _ _ _ t (hctx ▸ hb), runMode_stream _ _ _ _ s hb]
    exact byteLoop_congr_state hctx hmem _ _ _ _
  · rw [runMode_block _ _ _ _ t (hctx ▸ hb), runMode_block _ _ _ _ s hb, hctx]
    exact blockLoop_congr_state hctx hmem _ _ _ _

end

theorem runMode_setResult (dir : Dir) (inp out len : Nat) (s : State) (c : ResultCode) :
    runMode dir inp out len (s.setResult c) = (runMode dir inp out len s).setResult c := by
  obtain ⟨hctx, hmem⟩ := runMode_congr_state (t := s.setResult c) (s := s) rfl rfl dir inp out len
  rw [runMode_frame, hctx, hmem, runMode_frame _ _ _ _ s]
  rfl

/-- A run over `a + b` bytes is one over the first `a`, whole blocks in a block mode, and one over the other `b`. -/
theorem runMode_add (dir : Dir) (inp out : Nat) {a : Nat} (b : Nat) (s : State)
    (ha : s.ctx.mode.isBlockMode = true → a % 8 = 0) :
    runMode dir inp out (a + b) s = runMode dir (inp + a) (out + a) b (runMode dir inp out a s) := by
  have hmode := (runMode_sameKey dir inp out a s).mode
  cases hb : s.ctx.mode.isBlockMode
  · rw [runMode_stream _ _ _ b _ (hmode ▸ hb), runMode_stream _ _ _ _ s hb, runMode_stream _ _ _ _ s hb,
      byteLoop_append]
  · have hsplit : (a + b) / 8 = a / 8 + b / 8 := by have := ha hb; omega
    have hfirst : 8 * (a / 8) = a := by have := ha hb; omega
    rw [runMode_block _ _ _ b _ (hmode ▸ hb), hmode, runMode_block _ _ _ _ s hb, runMode_block _ _ _ _ s hb, hsplit,
      blockLoop_append, hfirst]

/-- ENCB or DECB passes its checks and its regions have a meaning. -/
structure CanRun (s : State) (inp out len : Nat) : Prop where
  accepted : Accepted (.encb inp out len) s
  valid : ValidBuffers s inp out len

theorem CanRun.exec_eq {s : State} {inp out len : Nat} (h : CanRun s inp out len) (dir : Dir) :
    exec (bufferInstr dir inp out len) s = .next ((runMode dir inp out len s).setResult .success) :=
  exec_bufferInstr_accepted h.accepted h.valid

/-- The checks read `LIFE`, `MODE` and the platform only. -/
theorem CanRun.congr {s t : State} {inp out len : Nat} (h : CanRun s inp out len) (hkey : SameKey s.ctx t.ctx)
    (hplatform : t.platform = s.platform) : CanRun t inp out len := by
  obtain ⟨⟨hlife, hinp, hout, hlen⟩, ⟨hread, hwrite, hplacement⟩⟩ := h
  refine ⟨⟨hkey.life.trans hlife, hinp, hout, hkey.mode.symm ▸ hlen⟩, ?_, ?_, hplacement⟩
  · rw [ReadableRegion, hplatform]; exact hread
  · rw [WritableRegion, hplatform]; exact hwrite

/-- What can run over a region can run over a piece of it, whole blocks in a block mode. -/
theorem CanRun.piece {s : State} {inp out len k n : Nat} (h : CanRun s inp out len) (hk : k + n ≤ len)
    (hn : s.ctx.mode = .ecb ∨ s.ctx.mode = .cbc → n % 8 = 0) : CanRun s (inp + k) (out + k) n := by
  obtain ⟨⟨hlife, hinp, hout, -⟩, ⟨⟨hi, hi', hread⟩, ⟨ho, ho', hwrite⟩, hplacement⟩⟩ := h
  refine ⟨⟨hlife, by omega, by omega, hn⟩, ⟨by omega, by omega, fun g hg hkind a hlo hhi => ?_⟩,
    ⟨by omega, by omega, fun g hg a hlo hhi => ?_⟩, ?_⟩
  · exact hread g hg hkind a (by omega) (by omega)
  · exact hwrite g hg a (by omega) (by omega)
  · exact hplacement.imp (by omega) fun hdisjoint a ha => hdisjoint a (by omega)

theorem runPieces_cons {dir : Dir} {inp out n : Nat} {s : State} (h : CanRun s inp out n) (ns : List Nat) :
    runPieces dir inp out (n :: ns) s =
      runPieces dir (inp + n) (out + n) ns ((runMode dir inp out n s).setResult .success) := by
  rw [runPieces, h.exec_eq dir]

section
variable {inp out n : Nat} {ns : List Nat} {s : State} (h : CanRun s inp out (n :: ns).sum)
  (hblocks : s.ctx.mode = .ecb ∨ s.ctx.mode = .cbc → ∀ k ∈ n :: ns, k % 8 = 0)
include h hblocks

theorem CanRun.first_piece : CanRun s inp out n :=
  h.piece (k := 0) (by simp) fun hm => hblocks hm n List.mem_cons_self

/-- After the first piece the others can run. -/
theorem CanRun.after_first_piece (dir : Dir) :
    CanRun ((runMode dir inp out n s).setResult .success) (inp + n) (out + n) ns.sum := by
  have hrest : CanRun s (inp + n) (out + n) ns.sum := h.piece (by simp) fun hm => by
    obtain ⟨⟨-, -, -, hlen⟩, -⟩ := h
    have hwhole := hlen hm
    have hfirst := hblocks hm n List.mem_cons_self
    rw [List.sum_cons] at hwhole
    omega
  exact hrest.congr (runMode_sameKey dir inp out n s) (by rw [runMode_frame]; rfl)

end

/-- The pieces, one after the other, do what one command over all of them does. -/
theorem runPieces_eq (dir : Dir) {ns : List Nat} (hne : ns ≠ []) {inp out : Nat} {s : State}
    (h : CanRun s inp out ns.sum) (hblocks : s.ctx.mode = .ecb ∨ s.ctx.mode = .cbc → ∀ k ∈ ns, k % 8 = 0) :
    runPieces dir inp out ns s = some ((runMode dir inp out ns.sum s).setResult .success) := by
  induction ns generalizing inp out s with
  | nil => exact absurd rfl hne
  | cons n ns ih =>
    rw [runPieces_cons (h.first_piece hblocks), List.sum_cons,
      runMode_add dir inp out _ s fun hb => hblocks ((isBlockMode_iff _).mp hb) n List.mem_cons_self]
    rcases eq_or_ne ns [] with rfl | hns
    · rw [List.sum_nil, runMode_zero]
      rfl
    · have hmode := (runMode_sameKey dir inp out n s).mode
      rw [ih hns (h.after_first_piece hblocks dir)
        fun hm k hk => hblocks (hmode ▸ hm) k (List.mem_cons_of_mem n hk), runMode_setResult]
      rfl

/-- On a READY context, ENC and DEC leave what a buffer command reads. -/
theorem exec_enc_dec_keeps {l r : Word} {s t : State} (hl : s.ctx.life = .ready)
    (h : exec (.enc l r) s = .next t ∨ exec (.dec l r) s = .next t) :
    t.ctx = s.ctx ∧ t.mem = s.mem ∧ t.platform = s.platform := by
  rcases h with h | h
  · cases (execEnc_accepted hl).symm.trans h
    exact ⟨rfl, rfl, rfl⟩
  · cases (execDec_accepted hl).symm.trans h
    exact ⟨rfl, rfl, rfl⟩

/-- Settles O48: a run is one over its first piece and one over the others; ENC and DEC leave what a run reads. -/
theorem chunkEquivalence : Obligations.ChunkEquivalence := by
  refine ⟨fun s dir inp out pieces hne ha hr hblocks => ?_, fun s t l r dir inp out len ht ha hr => ?_⟩
  · have h : CanRun s inp out pieces.sum := ⟨(accepted_bufferInstr ..).mp ha, hr⟩
    exact ⟨_, h.exec_eq dir, runPieces_eq dir hne h hblocks⟩
  · have h : CanRun s inp out len := ⟨(accepted_bufferInstr ..).mp ha, hr⟩
    obtain ⟨hlife, -⟩ := h.accepted
    obtain ⟨hctx, hmem, hplatform⟩ := exec_enc_dec_keeps hlife ht
    exact ⟨_, _, h.exec_eq dir, (h.congr (hctx ▸ SameKey.refl _) hplatform).exec_eq dir,
      runMode_congr_state hctx hmem dir inp out len⟩

end Sys2Proof.Machine

/-! PROOFS. The context commands (44_context_commands.md): what INIT installs and the order of its errors, the reseeds,
teardown, and the gate in front of the other commands. -/

namespace Sys2Proof.Machine

/-! ## INIT (R183 to R189) -/

theorem usesIv_iff (m : Mode) : m.usesIv = true ↔ m = .cbc ∨ m = .cfb ∨ m = .ofb := by
  cases m <;> simp [Mode.usesIv]

/-- Settles O25: an accepted INIT is `initInstall`, for the key read from memory. -/
theorem initInstallsTheContext : Obligations.InitInstallsTheContext := by
  intro s m klen key iva cta ha hr
  refine ⟨memRead s.mem key klen, memRead_length .., memRead_getElem? _ _ _, (execInit_accepted m ha hr).trans ?_⟩
  rw [initInstall_eq]
  simp only [usesIv_iff, usesCtr_iff]
  rfl

/-- The tags of the modes that use an IV, as an operand names them. -/
theorem usesIv_iff_tag (m : Mode) :
    m.usesIv = true ↔ m.tag.toNat = 1 ∨ m.tag.toNat = 2 ∨ m.tag.toNat = 3 := by
  cases m <;> decide

theorem usesCtr_iff_tag (m : Mode) : m.usesCtr = true ↔ m.tag.toNat = 4 := by
  cases m <;> decide

theorem presenceOk_iff (a : Nat) (needed : Bool) : presenceOk a needed = true ↔ (a ≠ 0 ↔ needed = true) := by
  cases needed <;> simp [presenceOk, isNull, Config.null]

section
variable {mode klen key iva cta : Nat}

theorem exists_mode_of_le_four (h : mode ≤ 4) : ∃ m : Mode, mode = m.tag.toNat := by
  interval_cases mode
  exacts [⟨.ecb, rfl⟩, ⟨.cbc, rfl⟩, ⟨.cfb, rfl⟩, ⟨.ofb, rfl⟩, ⟨.ctr, rfl⟩]

theorem modeOfTag_of_five_le (h : 5 ≤ mode) : modeOfTag mode = none := by
  obtain ⟨n, rfl⟩ := Nat.exists_eq_add_of_le' h
  rfl

theorem keyLengthOk_iff (klen : Nat) : keyLengthOk klen = true ↔ ¬ (klen = 0 ∨ 57 ≤ klen) := by
  simp only [keyLengthOk, Bool.and_eq_true, decide_eq_true_eq]
  omega

theorem initChecks_of_null_key : initChecks mode klen 0 iva cta = .error .invalidParameter := rfl

section
variable (hkey : key ≠ 0)
include hkey

theorem initChecks_of_key_length (hlen : klen = 0 ∨ 57 ≤ klen) :
    initChecks mode klen key iva cta = .error .invalidKey := by
  have hbad : keyLengthOk klen = false := Bool.eq_false_iff.mpr fun h => (keyLengthOk_iff klen).mp h hlen
  simp [initChecks, isNull, Config.null, hkey, hbad]

variable (hlen : ¬ (klen = 0 ∨ 57 ≤ klen))
include hlen

theorem initChecks_of_mode (hmode : 5 ≤ mode) : initChecks mode klen key iva cta = .error .invalidMode := by
  simp [initChecks, isNull, Config.null, hkey, (keyLengthOk_iff klen).mpr hlen, modeOfTag_of_five_le hmode]

theorem initChecks_of_presence (hmode : ¬ 5 ≤ mode)
    (hpresence : ¬ ((iva ≠ 0 ↔ mode = 1 ∨ mode = 2 ∨ mode = 3) ∧ (cta ≠ 0 ↔ mode = 4))) :
    initChecks mode klen key iva cta = .error .invalidParameter := by
  obtain ⟨m, rfl⟩ := exists_mode_of_le_four (Nat.le_of_not_lt hmode)
  rw [← usesIv_iff_tag, ← usesCtr_iff_tag, ← presenceOk_iff, ← presenceOk_iff] at hpresence
  rcases not_and_or.mp hpresence with hiva | hcta
  · simp [initChecks, isNull, Config.null, hkey, (keyLengthOk_iff klen).mpr hlen, hiva]
  · simp [initChecks, isNull, Config.null, hkey, (keyLengthOk_iff klen).mpr hlen, hcta]

end

/-- A failed check of INIT sets the code and FAILED, and nothing else (R189). -/
theorem exec_init_of_failed_check {c : ResultCode} (s : State) (h : initChecks mode klen key iva cta = .error c) :
    exec (.init mode klen key iva cta) s = .next ((s.setResult c).setLife .failed) := by
  have hfail : finishInit c s = (s.setResult c).setLife .failed := if_pos (by simp [initChecks_isError h])
  rw [exec, execInit, h, ← hfail]

end

/-- Settles O27: the checks in their order; when none fails, the operands are those of an accepted INIT. -/
theorem initErrorsInOrder : Obligations.InitErrorsInOrder := by
  intro s mode klen key iva cta
  split_ifs with hkey hlen hmode hpresence
  · subst hkey
    exact exec_init_of_failed_check s initChecks_of_null_key
  · exact exec_init_of_failed_check s (initChecks_of_key_length hkey hlen)
  · exact exec_init_of_failed_check s (initChecks_of_mode hkey hlen hmode)
  · exact ⟨hkey, by omega, by omega, by omega, hpresence⟩
  · exact exec_init_of_failed_check s (initChecks_of_presence hkey hlen hmode hpresence)

/-! ## The reseeds (R190 to R193) -/

/-- Settles O28: an accepted RSTIV is the reseed. -/
theorem rstivReseedsTheIv : Obligations.RstivReseedsTheIv :=
  fun _ _ ha hr => execRstiv_accepted ha hr

/-- Settles O29: an accepted RSTCTR is the reseed. -/
theorem rstctrReseedsTheCounter : Obligations.RstctrReseedsTheCounter :=
  fun _ _ ha hr => execRstctr_accepted ha hr

/-- An INIT that left a READY context passed its checks. -/
theorem execInit_of_ready {mode klen key iva cta : Nat} {s t : State} (h : execInit mode klen key iva cta s = .next t)
    (hready : t.ctx.life = .ready) :
    ∃ m : Mode, mode = m.tag.toNat ∧ Accepted (.init mode klen key iva cta) s ∧
      ValidRegions (.init mode klen key iva cta) s ∧ t = initInstall m klen key iva cta s := by
  rcases execInit_cases h with ⟨c, -, hc, rfl⟩ | hinstalled
  · simp [hc] at hready
  · exact hinstalled

/-- An accepted INIT without a counter, in a mode other than ECB, is in a mode that uses the IV (R185). -/
theorem usesIv_of_accepted {m : Mode} {klen key iva : Nat} {s : State}
    (ha : Accepted (.init m.tag.toNat klen key iva 0) s) (hm : m.tag.toNat ≠ 0) : m.usesIv = true := by
  obtain ⟨-, -, -, -, -, hcta⟩ := ha
  cases m with
  | ecb => exact absurd rfl hm
  | ctr => exact absurd rfl (hcta.mpr rfl)
  | cbc => rfl
  | cfb => rfl
  | ofb => rfl

/-- In a mode that uses the IV, INIT reads the IV and installs a zero counter (R185, R186). -/
theorem initInstall_ctx_of_usesIv {m : Mode} (hm : m.usesIv = true) (klen key iva cta : Nat) (s : State) :
    (initInstall m klen key iva cta s).ctx =
      initContext m (memRead s.mem key klen) (memReadBlock s.mem iva) ⟨0, 0⟩ := by
  rw [initInstall_ctx]
  rcases (usesIv_iff m).mp hm with rfl | rfl | rfl <;> rfl

/-- Outside CTR, a buffer command changes nothing of a context without unused keystream that a reseed of the IV does not
restore (R190). -/
theorem reseedIv_runMode (dir : Dir) (inp out len : Nat) {s : State} (hmode : s.ctx.mode ≠ .ctr)
    (hstream : s.ctx.clearStream = s.ctx) :
    ((runMode dir inp out len s).ctx.setIv s.ctx.iv).clearStream = s.ctx := by
  obtain ⟨htables, hm, hweak, hlife⟩ := runMode_sameKey dir inp out len s
  have hctr := runMode_ctr dir inp out len hmode
  rw [← hstream]
  simp [Context.setIv, Context.clearStream, htables, hm, hweak, hlife, hctr]

/-- After a buffer command that kept the bytes of the IV it started from, RSTIV restores the context (R190). -/
theorem execRstiv_undoes_runMode (dir : Dir) (inp out len : Nat) {iva : Nat} {s : State}
    (ha : Accepted (.rstiv iva) s) (hr : ReadableRegion s iva 8) (hstream : s.ctx.clearStream = s.ctx)
    (hiv : memReadBlock (runMode dir inp out len s).mem iva = s.ctx.iv) :
    ∃ v, execRstiv iva ((runMode dir inp out len s).setResult .success) = .next v ∧ v.ctx = s.ctx := by
  obtain ⟨hlife, hiva, huses⟩ := ha
  obtain ⟨-, hmode', -, hlife'⟩ := runMode_sameKey dir inp out len s
  have ha' : Accepted (.rstiv iva) ((runMode dir inp out len s).setResult .success) :=
    ⟨hlife'.trans hlife, hiva, hmode'.symm ▸ huses⟩
  have hr' : ReadableRegion ((runMode dir inp out len s).setResult .success) iva 8 := by
    rw [runMode_frame]
    exact hr
  have hmode : s.ctx.mode ≠ .ctr := by rcases huses with h | h | h <;> simp [h]
  refine ⟨_, execRstiv_accepted ha' hr', ?_⟩
  rw [setResult_ctx, setCtx_ctx, setResult_mem, hiv]
  exact reseedIv_runMode dir inp out len hmode hstream

/-- Settles O30: the buffer command keeps the context but for what the reseed writes, and the IV's bytes in memory are
those that INIT read. -/
theorem rstivReturnsToTheInitState : Obligations.RstivReturnsToTheInitState := by
  intro s t u mode klen key iva inp out len dir hinit hready hmode hbuffer hsuccess hbytes
  obtain ⟨m, rfl, ha, ⟨-, hread, -⟩, rfl⟩ := execInit_of_ready hinit hready
  have huses := usesIv_of_accepted ha hmode
  have htag := (usesIv_iff_tag m).mp huses
  have hctx := initInstall_ctx_of_usesIv huses klen key iva 0 s
  have hplatform := (exec_surroundings hinit).platform
  obtain ⟨-, -, -, -, hiva, -⟩ := ha
  rw [exec_bufferInstr] at hbuffer
  obtain ⟨-, -, rfl⟩ := bufferCommand_of_success hbuffer hsuccess
  refine execRstiv_undoes_runMode dir inp out len ⟨hready, hiva.mpr htag, ?_⟩ ?_ ?_ ?_
  · rw [hctx]
    exact (usesIv_iff m).mp huses
  · rw [ReadableRegion, hplatform]
    exact hread htag
  · rw [hctx]
    rfl
  · rw [hctx]
    exact memReadBlock_congr hbytes

/-! ## Teardown (R196) -/

/-- Settles O31: TDN installs the zero context, register by register. -/
theorem teardownZeroises : Obligations.TeardownZeroises := by
  refine fun s => ⟨_, execTdn_eq s, fun i => ?_, fun j i => ?_, rfl, rfl, rfl, fun i => ?_, rfl, rfl, rfl, rfl, rfl, rfl,
    rfl, rfl, rfl⟩
  all_goals simp [Context.zero, Tables.zero]

/-! ## The gate (R182) -/

/-- Settles O32: INIT and TDN are the only commands not behind the gate. -/
theorem lifecycleGate : Obligations.LifecycleGate := by
  intro s hl i hi
  refine exec_of_not_ready hl ?_ fun mode klen key iva cta => ?_
  all_goals rintro rfl; exact hi

end Sys2Proof.Machine

/-! PROOFS. The errors (60_exceptions.md): an error changes `RESULT` and `LIFE` only, and which command reports which
code. -/

namespace Sys2Proof.Machine

/-! ## Errors are precise (R211) -/

/-- Settles O34: a failed check ends in `finish`, and every other effect reports Success or WeakKey. -/
theorem errorsArePrecise : Obligations.ErrorsArePrecise := by
  intro i s t h hsuccess hweak
  cases exec_effect h with
  | initFails => rw [finishInit_eq]
  | fails => rw [finish_eq]
  | initInstalls =>
    rw [initInstall_resp] at hsuccess hweak
    exact (initCode_cases _).elim (absurd · hsuccess) (absurd · hweak)
  | _ => exact absurd rfl hsuccess

/-! ## The codes of each command (R201) -/

/-- Only the buffer commands report BadBufferLength. -/
theorem exec_badBufferLength {i : Instr} {s t : State} (h : exec i s = .next t)
    (hcode : t.resp.result = .badBufferLength) : ∃ dir inp out len, i = bufferInstr dir inp out len := by
  cases i with
  | encb inp out len => exact ⟨.enc, inp, out, len, rfl⟩
  | decb inp out len => exact ⟨.dec, inp, out, len, rfl⟩
  | init =>
    rcases execInit_cases h with ⟨c, hc, -, rfl⟩ | ⟨m, -, -, -, rfl⟩
    · rcases initChecks_code hc with rfl | rfl | rfl <;> simp at hcode
    · rw [initInstall_resp] at hcode
      rcases initCode_cases _ with hw | hw <;> cases hw.symm.trans hcode
  | rstiv => rcases execRstiv_cases h with ⟨-, rfl⟩ | ⟨-, -, rfl⟩ <;> simp at hcode
  | rstctr => rcases execRstctr_cases h with ⟨-, rfl⟩ | ⟨-, -, rfl⟩ <;> simp at hcode
  | enc => rcases execEnc_cases h with ⟨-, rfl⟩ | ⟨-, rfl⟩ <;> simp at hcode
  | dec => rcases execDec_cases h with ⟨-, rfl⟩ | ⟨-, rfl⟩ <;> simp at hcode
  | tdn => cases h; simp at hcode

/-- Settles O36: the codes of INIT's checks, of the other commands' checks, and of the effects; the numbers are
computed. -/
theorem resultCodesOfEachCommand : Obligations.ResultCodesOfEachCommand := by
  refine ⟨fun i s t h => ?_, by decide⟩
  cases exec_effect h with
  | initFails hc =>
    right
    rcases initChecks_code hc with rfl | rfl | rfl
    · exact .inl ⟨by simp, Instr.noConfusion⟩
    · exact .inr (.inl ⟨.inl (by simp), _, _, _, _, _, rfl⟩)
    · exact .inr (.inl ⟨.inr (.inr (by simp)), _, _, _, _, _, rfl⟩)
  | fails hi ha hc =>
    right
    rcases hc with rfl | ⟨rfl, -, hblock⟩
    · exact .inl ⟨by simp, by rintro rfl; exact ha trivial⟩
    · exact .inr (.inr ⟨by simp, (isBlockMode_iff _).mp hblock, exec_badBufferLength h (by simp)⟩)
  | initInstalls =>
    rw [initInstall_resp]
    rcases initCode_cases _ with hw | hw
    · exact .inl hw
    · exact .inr (.inr (.inl ⟨.inr (.inl hw), _, _, _, _, _, rfl⟩))
  | _ => exact .inl rfl

end Sys2Proof.Machine

/-! PROOFS. Reset and hazards (70_reset_and_hazards.md): the bytes that an interrupted command leaves, the step that
interrupts it, and the host's own write. -/

namespace Sys2Proof.Machine

/-! ## The bytes an interrupted command leaves (R231) -/

/-- Exactly the bytes of the region whose free value says so are new. -/
theorem read_interruptedMemory (draw : Nat) (old new : Memory) (a n b : Nat) :
    Memory.read (interruptedMemory draw old new a n) b =
      if (a ≤ b ∧ b < a + n) ∧ Config.interruptedByteIsNew draw b = true then Memory.read new b
      else Memory.read old b := by
  induction n with
  | zero => rw [interruptedMemory, if_neg (by omega)]
  | succ n ih =>
    rw [interruptedMemory]
    by_cases hb : b = a + n
    · subst hb
      have hin : a ≤ a + n ∧ a + n < a + (n + 1) := by omega
      have hout : ¬ (a ≤ a + n ∧ a + n < a + n) := by omega
      simp only [hout, false_and, if_false] at ih
      simp only [hin, true_and, and_self]
      split
      · rw [read_write_self]
      · exact ih
    · have hregion : (a ≤ b ∧ b < a + (n + 1)) ↔ (a ≤ b ∧ b < a + n) := by omega
      simp only [hregion]
      split
      · rw [read_write_ne _ _ hb, ih]
      · exact ih

theorem read_abandonedMemory_eq_or (i : Instr) (s t : State) (b : Nat) :
    Memory.read (abandonedMemory i s t) b = Memory.read s.mem b ∨
      Memory.read (abandonedMemory i s t) b = Memory.read t.mem b := by
  unfold abandonedMemory
  split
  · rw [read_interruptedMemory]
    exact (ite_eq_or_eq _ _ _).symm
  · exact .inl rfl

theorem read_abandonedMemory_outside (i : Instr) (s t : State) {b : Nat}
    (hb : ¬ ((outputRegion i).1 ≤ b ∧ b < (outputRegion i).1 + (outputRegion i).2)) :
    Memory.read (abandonedMemory i s t) b = Memory.read s.mem b := by
  unfold abandonedMemory
  split
  · rw [read_interruptedMemory, if_neg fun h => hb h.1]
  · rfl

/-! ## The step that interrupts a command (R231) -/

theorem resetDuringCommand_of_next {d : Descriptor} {i : Instr} {s t : State} (hdecode : decode d = .ok i)
    (hexec : exec i s = .next t) : resetDuringCommand d s =
      .next (hardwareReset { s with mem := abandonedMemory i s t, freeDraws := s.freeDraws + 1 }) := by
  simp only [resetDuringCommand, hdecode, hexec]

theorem resetDuringCommand_of_illegal {d : Descriptor} {e : IllegalDescriptor} (hdecode : decode d = .error e)
    (s : State) : resetDuringCommand d s = .next (hardwareReset s) := by
  rw [resetDuringCommand, hdecode]

/-- Settles O9: a legal command leaves the bytes of `abandonedMemory`, and an illegal descriptor is a reset alone. -/
theorem resetDuringCommandLeavesOldOrNewBytes : Obligations.ResetDuringCommandLeavesOldOrNewBytes := by
  refine ⟨fun s d rest i t hhost hdecode hexec => ?_, fun s d rest e hhost hdecode => ?_⟩
  · refine ⟨_, (step_of_host_eq_cons hhost).trans (resetDuringCommand_of_next hdecode hexec),
      rfl, rfl, rfl, rfl, rfl, fun a => ?_⟩
    rw [hardwareReset_mem]
    split
    · exact read_abandonedMemory_eq_or i _ t a
    · exact read_abandonedMemory_outside i _ t ‹_›
  · exact (step_of_host_eq_cons hhost).trans (resetDuringCommand_of_illegal hdecode _)

/-! ## The host's own write (R235) -/

/-- One byte is plain writable memory exactly when no hole of the platform holds it. -/
theorem platformWritable_one_iff (holes : List Hole) (a : Nat) :
    platformWritable holes a 1 = true ↔ ∀ h ∈ holes, ¬ (h.base ≤ a ∧ a < h.base + h.size) := by
  rw [platformWritable_iff]
  refine forall₂_congr fun h _ => ⟨fun hfree => hfree a le_rfl a.lt_succ_self, fun hfree x hlo hhi => ?_⟩
  rwa [show x = a by omega]

theorem hostWrite_of_writable (s : State) {a : Word} (v : Byte) (h : platformWritable s.platform a.toNat 1 = true) :
    hostWrite a v s = .next (s.setMem (Memory.write s.mem a.toNat v)) := by
  rw [hostWrite, if_pos h]

/-- Settles O10: a byte of plain memory is written, and reads after it are those of `read_write`. -/
theorem hostWriteStoresOneByte : Obligations.HostWriteStoresOneByte := by
  intro s a v rest hhost hplain
  have hwritable := (platformWritable_one_iff s.platform a.toNat).mpr hplain
  have hwrite := hostWrite_of_writable { s with host := rest } v hwritable
  exact ⟨_, (step_of_host_eq_cons hhost).trans hwrite, fun b => read_write s.mem a.toNat b v⟩

end Sys2Proof.Machine
